-- ==== Sys2Proof/Word.lean ====
section
/-! DEFINITION. The widths of the block's values (00_scope R6, R9: every value is an unsigned integer of a stated width). -/

namespace Sys2Proof

/-- A raw ADC code, `RAW_W` = 16 bits (R24). -/
abbrev RawCode := BitVec 16

/-- A tick count, `CNT_W` = 16 bits (R21). -/
abbrev Count := BitVec 16

/-- A voltage in voltage units, `VOLT_W` = 32 bits (R25). -/
abbrev Volt := BitVec 32

/-- A density slope in slope units, `SLOPE_W` = 32 bits (R6, CFG9). -/
abbrev Slope := BitVec 32

/-- A density in density units, `DENS_W` = `VOLT_W + SLOPE_W` = 64 bits (R26). -/
abbrev Dens := BitVec 64

/-- A measurement sequence number, `SEQ_W` = 32 bits (R182). -/
abbrev SeqNo := BitVec 32

/-- An ADC channel identifier, `CH_W` = 8 bits (R6, CFG2). -/
abbrev Chan := BitVec 8

/-- An LED output identifier, `LEDID_W` = 8 bits (R6, CFG0). -/
abbrev LedId := BitVec 8

/-- A tick period in nanoseconds, `TICKNS_W` = 32 bits (R6, CFG5). -/
abbrev Nanos := BitVec 32

/-- The cause bits of `cfg_err`, 5 bits (R211). -/
abbrev Cause := BitVec 5

/-- The configuration record as presented on `cfg_in`, format `CFG209` (R96). -/
abbrev CfgWord := BitVec 209

/-- The measurement record as returned on `meas_out`, format `MEAS145` (R97). -/
abbrev MeasWord := BitVec 145

end Sys2Proof
end

