-- ==== Sys2Proof/Config.lean ====
section
/-! DEFINITION. The structural parameters of 00_scope R6 that are not widths, and the one value the spec leaves unstated. -/

namespace Sys2Proof.Config

/-- `RING_DEPTH`: entries of the raw-sample buffer (R60). -/
def ringDepth : Nat := 1

/-- `PERIOD_REQ_NS`: the sensor's required pulse period in nanoseconds (R6, R200). -/
def periodReqNs : Nat := 10000000

/-- `PERIOD_TOL_NS`: OPEN, no value in the source (R6, U6), so uninterpreted. Log 2. -/
opaque periodTolNs : Nat

/-- `ADC_POLL_MAX` less one; uninterpreted. Log 3. -/
opaque adcPollMaxPred : Nat

/-- `ADC_POLL_MAX`: OPEN, any integer `>= 1` (R6, U1). Log 3. -/
def adcPollMax : Nat := adcPollMaxPred + 1

/-- `VSCALE` less one; uninterpreted. Log 4. -/
opaque vscalePred : Nat

/-- `VSCALE`: voltage units per volt, OPEN, any integer `>= 1` (R6, U12). No step depends on it. Log 4. -/
def vscale : Nat := vscalePred + 1

/-- `DSCALE` less one; uninterpreted. Log 4. -/
opaque dscalePred : Nat

/-- `DSCALE`: slope units per (µg/m³ per volt), OPEN, any integer `>= 1` (R6, U12). No step depends on it. Log 4. -/
def dscale : Nat := dscalePred + 1

/-- FREE VALUE: what `R2V` gives for `raw`, `VCC_FX`, `ADC_MAX` outside its contract (`raw > ADC_MAX`, or a zero
divisor). R162: "For `raw > ADC_MAX` ... this spec defines no result". Log 10. -/
opaque undefinedVoltage : RawCode → Volt → RawCode → Volt

end Sys2Proof.Config
end

