-- ==== Sys2Proof/Syntax.lean ====
section
/-! DEFINITION. The operations of the block (30_encoding R101, R104, R105), the words that encode them, and the phases. -/

namespace Sys2Proof

/-- One constructor per row of opcode_table.json. No operation has operand bits (R100): operands come from state,
the configuration, `cfg_in` or the ADC's answers (R106). -/
inductive Instr where
  /-- `IDLE`, OP4 0x0: no event (R198). -/
  | idle
  /-- `TICK`, OP4 0x1: `on_tick()` (R120). -/
  | tick
  /-- `MEAS`, OP4 0x2: `on_measurement_tick()` (R180). -/
  | meas
  /-- `RDRAW`, OP4 0x3: read the raw-sample buffer (R152). -/
  | rdraw
  /-- `TAKE`, OP4 0x4: take the published measurement (R185). -/
  | take
  /-- `RESET`, OP4 0x7 (R195). -/
  | reset
  /-- `R2V`, OP4 0x8, internal: raw code to voltage (R160). -/
  | r2v
  /-- `UPDB`, OP4 0x9, internal: update the baseline (R164). -/
  | updb
  /-- `V2D`, OP4 0xA, internal: voltage to density (R168). -/
  | v2d
  /-- `WRRAW`, OP4 0xB, internal: store into the raw-sample buffer (R150). -/
  | wrraw
  /-- `ADC.SEL`, ADC2 00: `select_channel(cfg.ADC_CH)` (R130). -/
  | adcSel
  /-- `ADC.START`, ADC2 01: `start_conversion()` (R131). -/
  | adcStart
  /-- `ADC.POLL`, ADC2 10: `conversion_done()` (R132). -/
  | adcPoll
  /-- `ADC.READ`, ADC2 11: `read_result()` (R133). -/
  | adcRead
  /-- `LED.CLR`, LED1 0 (R135). -/
  | ledClr
  /-- `LED.SET`, LED1 1 (R134). -/
  | ledSet
  deriving DecidableEq, Repr

/-- A word of one of the operation and command formats of R90, or bits that are no word of any of them. -/
inductive PortWord where
  /-- An operation word, 4 bits (R100). -/
  | op4 (w : BitVec 4)
  /-- A command on the ADC port, 2 bits (R104). -/
  | adc2 (w : BitVec 2)
  /-- A command on the LED port, 1 bit (R105). -/
  | led1 (w : BitVec 1)
  /-- `nbits` bits of value `w` that fit none of the three formats. -/
  | other (nbits w : Nat)
  deriving DecidableEq, Repr

/-- Who presents an operation: the environment on the `op` input (R100, R108), or one of the block's own sequencers,
which alone issue internal operations and port commands (R103). DESIGN CHOICE, log 7. -/
inductive Via where
  | opInput
  | sequencer
  deriving DecidableEq, Repr

/-- The three phases of the acquisition cursor (R20). `0b11` encodes no phase and is not representable (R93). -/
inductive Phase where
  | ledOnSettle
  | ledOnSample
  | ledOff
  deriving DecidableEq, Repr

end Sys2Proof
end

