-- ==== Sys2Proof/WellFormed.lean ====
section
/-! DEFINITION. What may be presented where: the class of an operation (30_encoding R100, R103) and the form of a run
(10_state R42). An operation has no operand, so every `Instr` by itself is well formed; the checks are about where it stands. -/

namespace Sys2Proof

/-- An external operation: OP4 with class bit 0 (R100). -/
def Instr.isExternal : Instr → Bool
  | .idle | .tick | .meas | .rdraw | .take | .reset => true
  | .r2v | .updb | .v2d | .wrraw => false
  | .adcSel | .adcStart | .adcPoll | .adcRead | .ledClr | .ledSet => false

/-- A port command (R104, R105). -/
def Instr.isPortCommand : Instr → Bool
  | .adcSel | .adcStart | .adcPoll | .adcRead | .ledClr | .ledSet => true
  | .idle | .tick | .meas | .rdraw | .take | .reset => false
  | .r2v | .updb | .v2d | .wrraw => false

/-- Which operations a presenter may present: the `op` input accepts external operations only (R103); the sequencers
issue internal operations and port commands. -/
def Instr.wellFormedVia : Via → Instr → Bool
  | .opInput, i => i.isExternal
  | .sequencer, i => !i.isExternal

/-- A finite run's operations: external ones, the first of them `RESET` (R13, R42, R103). For a run of any length, infinite
ones too, see `IsRun` in Machine/Run.lean. -/
def wellFormedRun (ops : List Instr) : Bool :=
  ops.all Instr.isExternal && (ops.head?.all fun i => i == .reset)

end Sys2Proof
end

