-- ==== Sys2Proof/Decode.lean ====
section
/-! DEFINITION. Decoding and encoding of operation words, port commands and phases (30_encoding R92, R100 to R105). -/

namespace Sys2Proof

/-- Why bits encode no operation. -/
inductive DecodeError where
  /-- A reserved `OP4` code: 0x5, 0x6, 0xC, 0xD, 0xE, 0xF (R102). -/
  | reservedCode (w : BitVec 4)
  /-- Bits that are no word of any format of R90. -/
  | noFormat (nbits w : Nat)
  deriving DecidableEq, Repr

/-- The operation map of R101; the six codes it calls reserved are rejected (R102). -/
def decodeOp4 (w : BitVec 4) : Except DecodeError Instr :=
  match w.toNat with
  | 0x0 => .ok .idle
  | 0x1 => .ok .tick
  | 0x2 => .ok .meas
  | 0x3 => .ok .rdraw
  | 0x4 => .ok .take
  | 0x7 => .ok .reset
  | 0x8 => .ok .r2v
  | 0x9 => .ok .updb
  | 0xA => .ok .v2d
  | 0xB => .ok .wrraw
  | _ => .error (.reservedCode w)

/-- The ADC port's commands (R104): all four codes are used. -/
def decodeAdc2 (w : BitVec 2) : Instr :=
  match w.toNat with
  | 0b00 => .adcSel
  | 0b01 => .adcStart
  | 0b10 => .adcPoll
  | _ => .adcRead

/-- The LED port's commands (R105): 1 is set, 0 is clear. -/
def decodeLed1 (w : BitVec 1) : Instr :=
  match w.toNat with
  | 0 => .ledClr
  | _ => .ledSet

/-- The operation a word stands for. -/
def decode : PortWord → Except DecodeError Instr
  | .op4 w => decodeOp4 w
  | .adc2 w => .ok (decodeAdc2 w)
  | .led1 w => .ok (decodeLed1 w)
  | .other n w => .error (.noFormat n w)

/-- The word of an operation, from the tables of R101, R104 and R105. -/
def encode : Instr → PortWord
  | .idle => .op4 0x0#4
  | .tick => .op4 0x1#4
  | .meas => .op4 0x2#4
  | .rdraw => .op4 0x3#4
  | .take => .op4 0x4#4
  | .reset => .op4 0x7#4
  | .r2v => .op4 0x8#4
  | .updb => .op4 0x9#4
  | .v2d => .op4 0xA#4
  | .wrraw => .op4 0xB#4
  | .adcSel => .adc2 0b00#2
  | .adcStart => .adc2 0b01#2
  | .adcPoll => .adc2 0b10#2
  | .adcRead => .adc2 0b11#2
  | .ledClr => .led1 0#1
  | .ledSet => .led1 1#1

/-- Format `PH2` (R92). -/
def Phase.encode : Phase → BitVec 2
  | .ledOnSettle => 0b00#2
  | .ledOnSample => 0b01#2
  | .ledOff => 0b10#2

/-- Format `PH2` read back; `0b11` encodes no phase (R93). -/
def Phase.decode (w : BitVec 2) : Option Phase :=
  match w.toNat with
  | 0b00 => some .ledOnSettle
  | 0b01 => some .ledOnSample
  | 0b10 => some .ledOff
  | _ => none

/-- The cyclic successor of a phase (R20, R92). -/
def Phase.next : Phase → Phase
  | .ledOnSettle => .ledOnSample
  | .ledOnSample => .ledOff
  | .ledOff => .ledOnSettle

/-- The word that `nbits` bits of value `w` are. Four bits, or the one byte that holds them, are an operation word; two
bits are an ADC command; one bit is an LED command. The three formats stand on different ports and share their bit
patterns, so a whole byte is read as an operation word. DESIGN CHOICE, log 16. -/
def PortWord.ofBits (nbits w : Nat) : PortWord :=
  if (nbits = 4 ∨ nbits = 8) ∧ w < 16 then .op4 (BitVec.ofNat 4 w)
  else if nbits = 2 ∧ w < 4 then .adc2 (BitVec.ofNat 2 w)
  else if nbits = 1 ∧ w < 2 then .led1 (BitVec.ofNat 1 w)
  else .other nbits w

/-- The operation the decoder reads from `nbits` bits of value `w`, numbered as opcode_table.json numbers them. -/
def decodeTableWord (nbits w : Nat) : Option Instr :=
  (decode (PortWord.ofBits nbits w)).toOption

end Sys2Proof
end

