-- ==== Sys2Proof/Machine/State.lean ====
section
/-! DEFINITION. The machine's state (10_state), the reasons a step can stop, and the state after reset (10_state R40). -/

namespace Sys2Proof.Machine

/-- No step of the block stops with a fault: its one exception, `ConfigFault`, is taken by `RESET` and leaves a next
state with `halted = 1` (R210, R214; log 21). The type is empty. -/
inductive Fault where
  deriving DecidableEq, Repr

/-- The steps the spec gives no meaning to (R14: "the model refuses it"), and the arm of an operation without a meaning. -/
inductive Refusal where
  /-- An operation the model gives no meaning; no arm of `exec` uses it. Safe. -/
  | notModelled (mnemonic : String)
  /-- Raised by `step` on a reserved `OP4` code (R102, U7). Safe. -/
  | reservedCode (w : BitVec 4)
  /-- Raised by `step` on bits that are no word of any format. Safe. -/
  | noFormat (nbits w : Nat)
  /-- Raised by `step` on an internal code or a port command presented on the `op` input (R103, U7), or on an external
  operation presented as a sequencer's own (log 7). Safe. -/
  | wrongPort (i : Instr)
  /-- Raised by `step` on any operation but `RESET` before the first `RESET` (R42, U9). Safe. -/
  | beforeFirstReset
  /-- Raised by `ADC.READ`, alone or inside the sampling `TICK`, when the ADC answers more than `ADC_MAX` (R129, U3). Safe. -/
  | adcResultAboveMax (r : RawCode)
  deriving DecidableEq, Repr

/-- The configuration record `CFG0` to `CFG10` (R6, R30, R96). -/
structure Cfg where
  /-- CFG0 `LED_ID`: opaque, read by no rule (R6). -/
  ledId : LedId
  /-- CFG1 `LED_ACTIVE_HIGH` (R23). -/
  ledActiveHigh : Bool
  /-- CFG2 `ADC_CH` (R130). -/
  adcCh : Chan
  /-- CFG3 `VCC_FX` (R160). -/
  vccFx : Volt
  /-- CFG4 `ADC_MAX` (R160). -/
  adcMax : RawCode
  /-- CFG5 `TICK_NS` (R200, R228). -/
  tickNs : Nanos
  /-- CFG6 `SETTLE_TICKS` (R121). -/
  settleTicks : Count
  /-- CFG7 `SAMPLE_TICKS` (R122). -/
  sampleTicks : Count
  /-- CFG8 `OFF_TICKS` (R124). -/
  offTicks : Count
  /-- CFG9 `SLOPE_FX` (R168). -/
  slopeFx : Slope
  /-- CFG10 `BASE0_FX` (R25). -/
  base0Fx : Volt
  deriving DecidableEq, Repr

/-- The raw-sample buffer `RAWBUF` (R33, R60) as pairs of an address and a 16-bit element, the smallest unit an
operation can address (R62, R72). Canonical form: `Memory.wf` in Machine/Ops.lean. Log 14. -/
abbrev Memory := List (Nat × RawCode)

/-- One entry of the output trace (R36): a port command with its answer, or a value returned to the consumer. -/
inductive PortEvent where
  /-- `LED.SET` (R134). -/
  | ledSet
  /-- `LED.CLR` (R135). -/
  | ledClr
  /-- `ADC.SEL(ch)` (R130). -/
  | adcSel (ch : Chan)
  /-- `ADC.START` (R131). -/
  | adcStart
  /-- `ADC.POLL` and the answer `adc_done` (R132). -/
  | adcPoll (done : Bool)
  /-- `ADC.READ` and the answer `adc_result` (R133). -/
  | adcRead (r : RawCode)
  /-- `RDRAW` and the value on `raw_out` (R152). -/
  | rdraw (v : RawCode)
  /-- `TAKE` and the record on `meas_out` (R185). -/
  | take (w : MeasWord)
  deriving DecidableEq, Repr

/-- What the environment holds on the input ports during a step (R108). -/
structure Pins where
  /-- `cfg_in`, sampled by `RESET` only (R96). -/
  cfgIn : CfgWord
  /-- The ADC's answers to the polls of this step: `some n` answers 0 to `n` of them and 1 to the next, `none` answers 0
  to all (R123: the number of polls and the outcome are draws). Log 5. -/
  adcDoneAfter : Option Nat
  /-- `adc_result`, the answer to `ADC.READ` (R133). -/
  adcResult : RawCode
  deriving DecidableEq, Repr

/-- One operation of the environment's schedule: who presents which word, and the input ports during that step. -/
structure Presentation where
  via : Via
  word : PortWord
  pins : Pins
  deriving DecidableEq, Repr

/-- The model's own latches: where an internal operation run by itself finds its operand (R106). No external operation
reads one before writing it (R34(c)). Log 8. -/
structure Latches where
  /-- The last answer to `ADC.POLL` (the `done` of R123). -/
  pollAnswer : Bool
  /-- The last answer to `ADC.READ`; operand of `WRRAW`. -/
  readAnswer : RawCode
  /-- The last value on `raw_out`; operand of `R2V`. -/
  rawOut : RawCode
  /-- The last result of `R2V`; operand of `UPDB` and `V2D`. -/
  volt : Volt
  /-- The last result of `V2D`. -/
  dens : Dens
  /-- The last record on `meas_out`. -/
  measOut : MeasWord
  deriving DecidableEq, Repr

/-- The ADC as the block's commands leave it (R34(a), R34(b)); it belongs to the environment and no rule reads it. Log 13. -/
structure AdcSide where
  /-- The channel last selected by `ADC.SEL`. -/
  channel : Chan
  /-- A conversion was started and no poll has answered done since. -/
  converting : Bool
  deriving DecidableEq, Repr

/-- The whole machine: the registers of 10_state section 1, then what stands around them. -/
structure State where
  /-- `phase` (R20). -/
  phase : Phase
  /-- `ticks_in_phase` (R21). -/
  ticksInPhase : Count
  /-- `led_on` (R23). -/
  ledOn : Bool
  /-- `RAWBUF`, whose element at address 0 is `raw_sample` (R24, R33). -/
  rawbuf : Memory
  /-- `baseline` (R25). -/
  baseline : Volt
  /-- `meas_raw` (R26). -/
  measRaw : RawCode
  /-- `meas_voltage` (R26). -/
  measVoltage : Volt
  /-- `meas_density` (R26). -/
  measDensity : Dens
  /-- `meas_seq` (R26, R182). -/
  measSeq : SeqNo
  /-- `ready` (R27). -/
  ready : Bool
  /-- `halted` (R28). -/
  halted : Bool
  /-- `cfg_err` (R28, R211). -/
  cfgErr : Cause
  /-- `cfg` (R30). -/
  cfg : Cfg
  /-- The ADC's hidden state (R34(a), (b)). -/
  adc : AdcSide
  /-- The model's operand latches. -/
  lat : Latches
  /-- The output trace, oldest entry first (R36). -/
  out : List PortEvent
  /-- Whether a first `RESET` has been executed (R42). -/
  started : Bool
  /-- The input ports during this step (R108). -/
  pins : Pins
  /-- The presentations still to come (R8); when there is none the environment presents `IDLE` (R108). The environment of an
  infinite run (R13) stands beside State, in Machine/Run.lean. Log 6. -/
  program : List Presentation
  deriving DecidableEq, Repr

/-- `CFG_A` of 95_test_vectors section 0: the document's scenario. -/
def Cfg.scenario : Cfg where
  ledId := 0
  ledActiveHigh := true
  adcCh := 0
  vccFx := 5000000
  adcMax := 1023
  tickNs := 16000
  settleTicks := 18
  sampleTicks := 2
  offTicks := 605
  slopeFx := 170
  base0Fx := 600000

/-- `CFG_A` as one number on `cfg_in` (95_test_vectors section 0). -/
def scenarioWord : CfgWord := 0x124F800000015404BA0004002400007D0007FE009896800100#209

/-- The latches as `RESET` leaves them. Log 8. -/
def Latches.cleared : Latches where
  pollAnswer := false
  readAnswer := 0
  rawOut := 0
  volt := 0
  dens := 0
  measOut := 0

/-- The machine right after a `RESET` that presented `CFG_A` (R40; the configuration presented is the model's choice,
log 1; the fields that are not registers are log 5, 6, 13, 15). -/
def State.reset : State where
  phase := .ledOnSettle
  ticksInPhase := 0
  ledOn := false
  rawbuf := []
  baseline := 600000
  measRaw := 0
  measVoltage := 0
  measDensity := 0
  measSeq := 0
  ready := false
  halted := false
  cfgErr := 0
  cfg := .scenario
  adc := { channel := 0, converting := false }
  lat := .cleared
  out := []
  started := true
  pins := { cfgIn := scenarioWord, adcDoneAfter := none, adcResult := 0 }
  program := []

end Sys2Proof.Machine
end

