-- ==== Sys2Proof/Machine/Ops.lean ====
section
/-! DEFINITION. The primitives of the spec's pseudocode (00_scope R10): the raw-sample buffer, the cursor, the output trace,
the commands on the LED and ADC ports, and raising `ConfigFault`. -/

namespace Sys2Proof.Machine

/-- What a step of this machine can answer. -/
abbrev Result := Host.Outcome State Fault Refusal

/-- Go on with `f` where `r` is a next state; keep a stop. -/
def andThen (r : Result) (f : State → Result) : Result :=
  match r with
  | .next s => f s
  | .fault e => .fault e
  | .refused e => .refused e

/-- `if halted = 1 then return` (R28: "While `halted = 1` no operation but `RESET` changes any state"; R120, R180).
DEDUCED for the internal operations and port commands, log 9. -/
def unlessHalted (s : State) (r : Result) : Result :=
  if s.halted then .next s else r

/-! ### The raw-sample buffer (20_memory) -/

/-- What an address with no entry reads as: the reset value 0 (R40, R63). -/
def Memory.unlisted : RawCode := 0

/-- One element of the buffer, as a unit (R62). -/
def Memory.read : Memory → Nat → RawCode
  | [], _ => Memory.unlisted
  | (b, w) :: m, a => if b = a then w else Memory.read m a

/-- The cells `m` with a new first entry, left out where it reads as an unlisted address does. -/
def Memory.cons (a : Nat) (v : RawCode) (m : Memory) : Memory :=
  if v = Memory.unlisted then m else (a, v) :: m

/-- Replace one element as a unit (R62), keeping addresses rising and no entry equal to the unlisted value. -/
def Memory.write : Memory → Nat → RawCode → Memory
  | [], a, v => Memory.cons a v []
  | (b, w) :: m, a, v =>
    if a < b then Memory.cons a v ((b, w) :: m)
    else if a = b then Memory.cons a v m
    else (b, w) :: Memory.write m a v

/-- Canonical form from address `lo` up: addresses strictly rising, below `RING_DEPTH`, no entry equal to the unlisted value. -/
def Memory.wfFrom : Nat → Memory → Bool
  | _, [] => true
  | lo, (a, v) :: m =>
    decide (lo ≤ a) && decide (a < Config.ringDepth) && decide (v ≠ Memory.unlisted) && Memory.wfFrom (a + 1) m

/-- The canonical form of the buffer (log 14). -/
def Memory.wf (m : Memory) : Bool := Memory.wfFrom 0 m

/-- `MemRead(0, 1)`: the register `raw_sample` (R10, R24). -/
def memRead (s : State) : RawCode := Memory.read s.rawbuf 0

/-- `MemWrite(0, 1, v)` (R10, R62). -/
def memWrite (v : RawCode) (s : State) : State := { s with rawbuf := Memory.write s.rawbuf 0 v }

/-! ### Cursor and trace -/

/-- `cursor <- (p, c)` (R10). -/
def setCursor (p : Phase) (c : Count) (s : State) : State := { s with phase := p, ticksInPhase := c }

/-- `emit`: append to the output trace (R10, R36). -/
def emit (e : PortEvent) (s : State) : State := { s with out := s.out ++ [e] }

/-! ### Commands on the LED and ADC ports -/

/-- `LED.SET`: `led_on <- 1` (R134). -/
def ledSet (s : State) : State := emit .ledSet { s with ledOn := true }

/-- `LED.CLR`: `led_on <- 0` (R135). -/
def ledClr (s : State) : State := emit .ledClr { s with ledOn := false }

/-- `ADC.SEL(cfg.ADC_CH)`: the ADC converts that channel from now on (R130). -/
def adcSel (s : State) : State := emit (.adcSel s.cfg.adcCh) { s with adc := { s.adc with channel := s.cfg.adcCh } }

/-- `ADC.START`: the ADC begins a conversion (R131). -/
def adcStart (s : State) : State := emit .adcStart { s with adc := { s.adc with converting := true } }

/-- The ADC's answer to the next poll (R132: a draw of the environment). -/
def Pins.adcDone (p : Pins) : Bool := p.adcDoneAfter == some 0

/-- The ports once the ADC has answered one poll. -/
def Pins.afterPoll (p : Pins) : Pins := { p with adcDoneAfter := p.adcDoneAfter.map (· - 1) }

/-- `ask ADC.POLL` (R132): the answer is `adc_done`; a conversion that is done is no longer in flight. -/
def adcPoll (s : State) : State :=
  let done := s.pins.adcDone
  emit (.adcPoll done)
    { s with
      pins := s.pins.afterPoll
      adc := { s.adc with converting := s.adc.converting && !done }
      lat := { s.lat with pollAnswer := done } }

/-- `ask ADC.READ` (R133). An answer above `ADC_MAX` is outside the contract and has no step (R129, U3; log 11). -/
def adcRead (s : State) : Result :=
  let r := s.pins.adcResult
  if r.toNat ≤ s.cfg.adcMax.toNat then .next (emit (.adcRead r) { s with lat := { s.lat with readAnswer := r } })
  else .refused (.adcResultAboveMax r)

/-! ### The one exception -/

/-- `raise ConfigFault(cause)` (R10, R210, R214): `cfg_err <- cause`, `halted <- 1`; nothing is saved and control goes nowhere. -/
def raiseConfigFault (cause : Cause) (s : State) : State := { s with cfgErr := cause, halted := true }

/-- Leaving the halt, which only a `RESET` with a valid configuration does (R195, R215). -/
def clearConfigFault (s : State) : State := { s with cfgErr := 0, halted := false }

end Sys2Proof.Machine
end

