-- ==== Sys2Proof/Machine/Operands.lean ====
section
/-! DEFINITION. Where operands come from and where results go (30_encoding R96, R97, R106): the data-record formats, the
operand of each internal operation, and the cursor's bound and successor (10_state R22). -/

namespace Sys2Proof.Machine

/-- Format `CFG209` cut into its fields (R96). -/
def unpackCfg (w : CfgWord) : Cfg where
  ledId := w.extractLsb' 0 8
  ledActiveHigh := w.getLsbD 8
  adcCh := w.extractLsb' 9 8
  vccFx := w.extractLsb' 17 32
  adcMax := w.extractLsb' 49 16
  tickNs := w.extractLsb' 65 32
  settleTicks := w.extractLsb' 97 16
  sampleTicks := w.extractLsb' 113 16
  offTicks := w.extractLsb' 129 16
  slopeFx := w.extractLsb' 145 32
  base0Fx := w.extractLsb' 177 32

/-- Format `CFG209` put together, most significant field first (R96). -/
def packCfg (c : Cfg) : CfgWord :=
  c.base0Fx ++ c.slopeFx ++ c.offTicks ++ c.sampleTicks ++ c.settleTicks ++ c.tickNs ++ c.adcMax ++ c.vccFx ++ c.adcCh ++
    BitVec.ofBool c.ledActiveHigh ++ c.ledId

/-- Format `MEAS145`: `valid`, `seq`, `density`, `voltage`, `raw`, most significant first (R97). -/
def packMeas (valid : Bool) (seq : SeqNo) (density : Dens) (voltage : Volt) (raw : RawCode) : MeasWord :=
  BitVec.ofBool valid ++ seq ++ density ++ voltage ++ raw

/-- The record `TAKE` returns (R185). -/
def measRecord (s : State) : MeasWord := packMeas s.ready s.measSeq s.measDensity s.measVoltage s.measRaw

/-- The configuration `RESET` finds on `cfg_in` (R106). -/
def resetOperand (s : State) : Cfg := unpackCfg s.pins.cfgIn

/-- The operand of `WRRAW`: the answer to `ADC.READ` (R106). -/
def wrrawOperand (s : State) : RawCode := s.lat.readAnswer

/-- The operand of `R2V`: the value `RDRAW` returned (R106). -/
def r2vOperand (s : State) : RawCode := s.lat.rawOut

/-- The operand of `UPDB`: the result of `R2V` (R106). -/
def updbOperand (s : State) : Volt := s.lat.volt

/-- The operand of `V2D`: the result of `R2V` (R106). -/
def v2dOperand (s : State) : Volt := s.lat.volt

/-- `bound(phase)` (R22). -/
def bound (c : Cfg) : Phase → Count
  | .ledOnSettle => c.settleTicks
  | .ledOnSample => c.sampleTicks
  | .ledOff => c.offTicks

/-- `c + 1 = bound(phase)`, compared exactly (R120, R136(d): a bound of 0 never matches). Log 18. -/
def isLastTick (c : Cfg) (p : Phase) (t : Count) : Bool := t.toNat + 1 == (bound c p).toNat

/-- The cursor after one more tick of its phase (R120): count, then compare. -/
def nextCursor (c : Cfg) (p : Phase) (t : Count) : Phase × Count :=
  if isLastTick c p t then (p.next, 0) else (p, t + 1)

/-- Whether the tick about to run is the last of its phase. -/
def lastTickOfPhase (s : State) : Bool := isLastTick s.cfg s.phase s.ticksInPhase

/-- Move the cursor by one tick (R120). -/
def advanceCursor (s : State) : State :=
  let n := nextCursor s.cfg s.phase s.ticksInPhase
  setCursor n.1 n.2 s

end Sys2Proof.Machine
end

