-- ==== Sys2Proof/Machine/Acquisition.lean ====
section
/-! DEFINITION. The acquisition state machine (40_acquisition): `TICK` and the port commands it issues. -/

namespace Sys2Proof.Machine

/-- The busy-wait of R123: poll until the ADC answers done, at most `fuel` times. -/
def pollUntilDone : Nat → State → State
  | 0, s => s
  | fuel + 1, s => if (adcPoll s).lat.pollAnswer then adcPoll s else pollUntilDone fuel (adcPoll s)

/-- Store the operand of `WRRAW` into the raw-sample buffer (R150). -/
def wrraw (s : State) : State := memWrite (wrrawOperand s) s

/-- What follows the busy-wait (R123): with an answer of done, read the result and store it; else nothing (Timeout). -/
def storeIfDone (s : State) : Result :=
  if s.lat.pollAnswer then andThen (adcRead s) (fun t => .next (wrraw t)) else .next s

/-- `AdcSample()` (R123). -/
def adcSample (s : State) : Result :=
  storeIfDone (pollUntilDone Config.adcPollMax (adcStart (adcSel s)))

/-- A tick of `LedOnSample` after its ADC work (R122): the last one clears the LED. -/
def sampleTickEnd (s : State) : State := advanceCursor (if lastTickOfPhase s then ledClr s else s)

/-- `TICK` (R120 to R128, R136). -/
def execTick (s : State) : Result :=
  unlessHalted s <|
    match s.phase with
    | .ledOnSettle => .next (advanceCursor (ledSet s))
    | .ledOnSample =>
      andThen (if s.ticksInPhase = 0 then adcSample s else .next s) fun t => .next (sampleTickEnd t)
    | .ledOff => .next (advanceCursor s)

/-- `ADC.SEL` (R130). -/
def execAdcSel (s : State) : Result := unlessHalted s (.next (adcSel s))

/-- `ADC.START` (R131). -/
def execAdcStart (s : State) : Result := unlessHalted s (.next (adcStart s))

/-- `ADC.POLL` (R132). -/
def execAdcPoll (s : State) : Result := unlessHalted s (.next (adcPoll s))

/-- `ADC.READ` (R133, R129). -/
def execAdcRead (s : State) : Result := unlessHalted s (adcRead s)

/-- `LED.SET` (R134). -/
def execLedSet (s : State) : Result := unlessHalted s (.next (ledSet s))

/-- `LED.CLR` (R135). -/
def execLedClr (s : State) : Result := unlessHalted s (.next (ledClr s))

end Sys2Proof.Machine
end

