-- ==== Sys2Proof/Machine/Conversion.lean ====
section
/-! DEFINITION. The fixed-point converter and the baseline filter (42_conversion): `R2V`, `UPDB`, `V2D`. -/

namespace Sys2Proof.Machine

/-- `R2V(raw)` (R160): the exact product, divided rounding down. Outside the contract `raw <= ADC_MAX`, `ADC_MAX >= 1`
the spec defines no result (R162) and the value is free (log 10). -/
def r2v (c : Cfg) (raw : RawCode) : Volt :=
  if raw.toNat ≤ c.adcMax.toNat ∧ 1 ≤ c.adcMax.toNat then
    BitVec.ofNat 32 (raw.toNat * c.vccFx.toNat / c.adcMax.toNat)
  else Config.undefinedVoltage raw c.vccFx c.adcMax

/-- The baseline after `UPDB(v)` (R164): unsigned compare, strict. -/
def updatedBaseline (baseline v : Volt) : Volt := if v.toNat < baseline.toNat then v else baseline

/-- `V2D(v)` (R168): saturating difference times slope, exact in 64 bits. -/
def v2d (baseline : Volt) (slope : Slope) (v : Volt) : Dens :=
  BitVec.ofNat 64 ((v.toNat - baseline.toNat) * slope.toNat)

/-- `R2V` (R160), its result held for `UPDB` and `V2D`. -/
def execR2v (s : State) : Result :=
  unlessHalted s (.next { s with lat := { s.lat with volt := r2v s.cfg (r2vOperand s) } })

/-- `UPDB` (R164). -/
def execUpdb (s : State) : Result :=
  unlessHalted s (.next { s with baseline := updatedBaseline s.baseline (updbOperand s) })

/-- `V2D` (R168), its result held. -/
def execV2d (s : State) : Result :=
  unlessHalted s (.next { s with lat := { s.lat with dens := v2d s.baseline s.cfg.slopeFx (v2dOperand s) } })

end Sys2Proof.Machine
end

