-- ==== Sys2Proof/Machine/Measurement.lean ====
section
/-! DEFINITION. The measurement sequencer (43_orchestrator): `MEAS` and `TAKE`. -/

namespace Sys2Proof.Machine

/-- Publish a measurement: the four result registers and `ready` change together (R180, R181). -/
def publish (r : RawCode) (v : Volt) (d : Dens) (s : State) : State :=
  { s with measRaw := r, measVoltage := v, measDensity := d, measSeq := s.measSeq + 1, ready := true }

/-- The body of `MEAS` (R180): one read of the buffer, then `R2V`, `UPDB`, `V2D` against the updated baseline. The
operands `r`, `v`, `d` are private to the operation (R181, R34(c); log 22). -/
def takeMeasurement (s : State) : State :=
  let r := memRead s
  let v := r2v s.cfg r
  let b := updatedBaseline s.baseline v
  publish r v (v2d b s.cfg.slopeFx v) { s with baseline := b }

/-- `MEAS` (R180 to R184). -/
def execMeas (s : State) : Result := unlessHalted s (.next (takeMeasurement s))

/-- `TAKE` (R185): return the record, clear `ready`. -/
def execTake (s : State) : Result :=
  .next (emit (.take (measRecord s)) { s with ready := false, lat := { s.lat with measOut := measRecord s } })

end Sys2Proof.Machine
end

