-- ==== Sys2Proof/Machine/RawBuffer.lean ====
section
/-! DEFINITION. The raw-sample buffer's operations (41_raw_buffer_ops): `WRRAW` and `RDRAW`. -/

namespace Sys2Proof.Machine

/-- `WRRAW(v)` (R150), `v` the answer to `ADC.READ`. -/
def execWrraw (s : State) : Result := unlessHalted s (.next (wrraw s))

/-- `RDRAW` (R152): return all of `raw_sample` on `raw_out`; no register is written, halted or not (R214). -/
def execRdraw (s : State) : Result :=
  .next (emit (.rdraw (memRead s)) { s with lat := { s.lat with rawOut := memRead s } })

end Sys2Proof.Machine
end

