-- ==== Sys2Proof/Machine/Flags.lean ====
section
/-! DEFINITION. The cause bits of a configuration (44_system R200, 60_exceptions R211), and the output pins and port codes
computed from state (10_state R23, 30_encoding R104, R105, R108). -/

namespace Sys2Proof.Machine

/-- The cycle's length in nanoseconds, exact (R200: it fits 64 bits). -/
def cycleNs (c : Cfg) : Nat := (c.settleTicks.toNat + c.sampleTicks.toNat + c.offTicks.toNat) * c.tickNs.toNat

/-- The distance of the cycle's length from `PERIOD_REQ_NS` (R200). -/
def periodDiff (c : Cfg) : Nat :=
  if cycleNs c ≥ Config.periodReqNs then cycleNs c - Config.periodReqNs else Config.periodReqNs - cycleNs c

/-- `E_SAMPLE_ZERO`, cause bit 0. -/
def errSampleZero (c : Cfg) : Bool := c.sampleTicks == 0

/-- `E_PHASE_ZERO`, cause bit 1. -/
def errPhaseZero (c : Cfg) : Bool := c.settleTicks == 0 || c.offTicks == 0

/-- `E_PERIOD`, cause bit 2. -/
def errPeriod (c : Cfg) : Bool := decide (periodDiff c > Config.periodTolNs)

/-- `E_ADC_MAX_ZERO`, cause bit 3. -/
def errAdcMaxZero (c : Cfg) : Bool := c.adcMax == 0

/-- `E_SLOPE_ZERO`, cause bit 4. -/
def errSlopeZero (c : Cfg) : Bool := c.slopeFx == 0

/-- `Validate(c)` (R200): all five checks, one cause bit each, bit 0 least significant (R211, R223). -/
def validate (c : Cfg) : Cause :=
  BitVec.ofBool (errSlopeZero c) ++ BitVec.ofBool (errAdcMaxZero c) ++ BitVec.ofBool (errPeriod c) ++
    BitVec.ofBool (errPhaseZero c) ++ BitVec.ofBool (errSampleZero c)

/-- The pin `led_pin`: `led_on` at the configured polarity (R23). -/
def ledPin (s : State) : Bool := if s.cfg.ledActiveHigh then s.ledOn else !s.ledOn

/-- The pin `ready_out` (R186, R221). -/
def readyOut (s : State) : Bool := s.ready

/-- The pin `halted_out` (R108, R214). -/
def haltedOut (s : State) : Bool := s.halted

/-- The pins `cfg_err_out` (R108, R214). -/
def cfgErrOut (s : State) : Cause := s.cfgErr

/-- The code `adc_cmd` of a command on the ADC port, `none` for any other event (R104). -/
def PortEvent.adcCmd : PortEvent → Option (BitVec 2)
  | .adcSel _ => some 0b00
  | .adcStart => some 0b01
  | .adcPoll _ => some 0b10
  | .adcRead _ => some 0b11
  | .ledSet | .ledClr | .rdraw _ | .take _ => none

/-- The operand `adc_ch` of a command on the ADC port: only `ADC.SEL` has one (R104). -/
def PortEvent.adcCh : PortEvent → Option Chan
  | .adcSel ch => some ch
  | .adcStart | .adcPoll _ | .adcRead _ | .ledSet | .ledClr | .rdraw _ | .take _ => none

/-- The code `led_cmd` of a command on the LED port (R105). -/
def PortEvent.ledCmd : PortEvent → Option (BitVec 1)
  | .ledSet => some 1
  | .ledClr => some 0
  | .adcSel _ | .adcStart | .adcPoll _ | .adcRead _ | .rdraw _ | .take _ => none

end Sys2Proof.Machine
end

