-- ==== Sys2Proof/Machine/System.lean ====
section
/-! DEFINITION. The system operations (44_system): `RESET` and `IDLE`. -/

namespace Sys2Proof.Machine

/-- The registers `RESET` writes before it validates (R195). The port trace, the ADC and the environment's side are not
touched (R195: no port command); the model's latches are cleared (log 8). -/
def resetRegisters (c : Cfg) (s : State) : State :=
  memWrite 0
    { s with
      cfg := c
      phase := .ledOnSettle
      ticksInPhase := 0
      ledOn := false
      baseline := c.base0Fx
      measRaw := 0
      measVoltage := 0
      measDensity := 0
      measSeq := 0
      ready := false
      lat := .cleared
      started := true }

/-- Raise `ConfigFault` on a cause, else leave the halt (R195, R210). -/
def settleValidation (cause : Cause) (s : State) : State :=
  if cause = 0 then clearConfigFault s else raiseConfigFault cause s

/-- `RESET` (R195, R200, R214). -/
def execReset (s : State) : Result :=
  .next (settleValidation (validate (resetOperand s)) (resetRegisters (resetOperand s) s))

/-- `IDLE` (R198): every register keeps its value. -/
def execIdle (s : State) : Result := .next s

end Sys2Proof.Machine
end

