-- ==== Sys2Proof/Machine/Dispatch.lean ====
section
/-! DEFINITION. One arm per operation of opcode_table.json. -/

namespace Sys2Proof.Machine

def exec (i : Instr) (s : State) : Host.Outcome State Fault Refusal :=
  match i with
  | .idle => Sys2Proof.Machine.execIdle s
  | .tick => Sys2Proof.Machine.execTick s
  | .meas => Sys2Proof.Machine.execMeas s
  | .rdraw => Sys2Proof.Machine.execRdraw s
  | .take => Sys2Proof.Machine.execTake s
  | .reset => Sys2Proof.Machine.execReset s
  | .r2v => Sys2Proof.Machine.execR2v s
  | .updb => Sys2Proof.Machine.execUpdb s
  | .v2d => Sys2Proof.Machine.execV2d s
  | .wrraw => Sys2Proof.Machine.execWrraw s
  | .adcSel => Sys2Proof.Machine.execAdcSel s
  | .adcStart => Sys2Proof.Machine.execAdcStart s
  | .adcPoll => Sys2Proof.Machine.execAdcPoll s
  | .adcRead => Sys2Proof.Machine.execAdcRead s
  | .ledClr => Sys2Proof.Machine.execLedClr s
  | .ledSet => Sys2Proof.Machine.execLedSet s

end Sys2Proof.Machine
end

