-- ==== Sys2Proof/Machine/Fetch.lean ====
section
/-! DEFINITION. How a step comes by its operation: the environment's next presentation, decoded and checked
(00_scope R8, R14; 10_state R42; 30_encoding R102, R103, R108). -/

namespace Sys2Proof.Machine

/-- The presentation of this step: the next of the schedule, or `IDLE` on the `op` input when there is none (R108). Log 6. -/
def currentPresentation (s : State) : Presentation :=
  match s.program with
  | [] => { via := .opInput, word := .op4 0x0#4, pins := s.pins }
  | p :: _ => p

/-- The state in which the presented operation executes: its inputs stand on the ports and it is taken off the schedule. -/
def fetched (s : State) : State :=
  { s with pins := (currentPresentation s).pins, program := s.program.tail }

/-- The refusal of bits that decode to nothing (R102). -/
def refusalOf : DecodeError → Refusal
  | .reservedCode w => .reservedCode w
  | .noFormat n w => .noFormat n w

/-- The operation a presentation asks for, or why the spec gives the step no meaning: a code that encodes nothing (R102),
an operation that its presenter may not present (R103), or any operation but `RESET` before the first `RESET` (R42). -/
def accept (started : Bool) (p : Presentation) : Except Refusal Instr :=
  match decode p.word with
  | .error e => .error (refusalOf e)
  | .ok i =>
    if i.wellFormedVia p.via = false then .error (.wrongPort i)
    else if started = false ∧ i ≠ .reset then .error .beforeFirstReset
    else .ok i

/-- The presenter that may present a word: the environment, unless the word is an internal operation or a port command. -/
def presenterOf (w : PortWord) : Via :=
  match decode w with
  | .ok i => if i.isExternal then .opInput else .sequencer
  | .error _ => .opInput

/-- The presentation of `nbits` bits of value `w`, the input ports as they stand. -/
def presentationOfBits (pins : Pins) (nbits w : Nat) : Presentation where
  via := presenterOf (PortWord.ofBits nbits w)
  word := PortWord.ofBits nbits w
  pins := pins

end Sys2Proof.Machine
end

