-- ==== Sys2Proof/Machine/Step.lean ====
section
/-! DEFINITION. One step: take the presented operation and execute it (00_scope R8: one external operation, one atomic step). -/

namespace Sys2Proof.Machine

/-- One step of the block under the environment's schedule. -/
def step (s : State) : Host.Outcome State Fault Refusal :=
  match accept s.started (currentPresentation s) with
  | .ok i => exec i (fetched s)
  | .error r => .refused r

/-- The operation of `nbits` bits of value `w` put at the head of the environment's schedule, where `step` takes its next
operation (log 6, 16). -/
def State.withFetchWord (s : State) (nbits w : Nat) : State :=
  { s with program := presentationOfBits s.pins nbits w :: s.program }

end Sys2Proof.Machine
end

