-- ==== Sys2Proof/Machine/Run.lean ====
section
/-! DEFINITION. Runs, finite and infinite (00_scope R13). State is plain data, so it holds a finite schedule; the environment
of an infinite run stands beside it, one presentation for each step number. -/

namespace Sys2Proof.Machine

/-- What an environment presents, step by step, without end (R8, R13, R14). Log 6. -/
abbrev Environment := Nat → Presentation

/-- The state under another schedule. -/
def State.withProgram (q : List Presentation) (s : State) : State := { s with program := q }

/-- One step in which the environment presents `p`, whatever the schedule held in the state; that schedule stays. -/
def stepUnder (p : Presentation) (s : State) : Result := step (s.withProgram (p :: s.program))

/-- What `n` steps under an environment answer. -/
def stepsUnder (env : Environment) (s : State) : Nat → Result
  | 0 => .next s
  | n + 1 => andThen (stepsUnder env s n) (stepUnder (env n))

/-- R13: a run of length `len`, infinite for `⊤`: operations on the `op` input (R103), the first of them `RESET` (R42), each a
step of the block from one state to the next. Its states before step `0`, `1`, ... are `σ 0`, `σ 1`, ... -/
structure IsRun (len : ℕ∞) (env : Environment) (σ : Nat → State) : Prop where
  opInput : ∀ k : Nat, k < len → (env k).via = .opInput
  first : 0 < len → (env 0).word = encode .reset
  steps : ∀ k : Nat, k < len → stepUnder (env k) (σ k) = .next (σ (k + 1))

/-- R13, R258: the fairness of the environment, the tick source keeps issuing `TICK`. -/
def Environment.Fair (env : Environment) : Prop := ∀ n : Nat, ∃ k, n ≤ k ∧ (env k).word = encode .tick

/-- No `RESET` is presented from step `n` on. -/
def Environment.NoResetFrom (env : Environment) (n : Nat) : Prop := ∀ k, n ≤ k → (env k).word ≠ encode .reset

/-- Step `k` of a run triggers the ADC: it emits an `ADC.START` (R126). -/
def SamplesAt (σ : Nat → State) (k : Nat) : Prop :=
  ∃ es, (σ (k + 1)).out = (σ k).out ++ es ∧ PortEvent.adcStart ∈ es

end Sys2Proof.Machine
end

