-- ==== Sys2Proof/Machine/Trace.lean ====
section
/-! DEFINITION. Traces (30_encoding R109, R110): the environment's schedule in the spec's own notation, its encoding, its
well-formedness, the pseudo-operations, and the order of simultaneous events (60_exceptions R222). -/

namespace Sys2Proof.Machine

/-- The outcome of a sampling tick's ADC exchange (R123): done on the poll after `misses` others, with a result, or not
done within `ADC_POLL_MAX` polls. -/
inductive AdcOutcome where
  | done (misses : Nat) (r : RawCode)
  | timeout
  deriving DecidableEq, Repr

/-- One line of a trace (R109). -/
inductive TraceOp where
  | reset (c : Cfg)
  | tick
  | tickAdc (a : AdcOutcome)
  | meas
  | rdraw
  | take
  | idle
  deriving DecidableEq, Repr

/-- The operation of a trace line. -/
def TraceOp.instr : TraceOp → Instr
  | .reset _ => .reset
  | .tick => .tick
  | .tickAdc _ => .tick
  | .meas => .meas
  | .rdraw => .rdraw
  | .take => .take
  | .idle => .idle

/-- The `OP4` code of an external operation (R101), 0 for any other. -/
def op4Code (i : Instr) : BitVec 4 :=
  match encode i with
  | .op4 w => w
  | .adc2 _ | .led1 _ | .other _ _ => 0

/-- The encoding of a trace: its `OP4` words (R109). -/
def traceWords (ops : List TraceOp) : List (BitVec 4) := ops.map fun o => op4Code o.instr

/-- The ports with the ADC's answers of an outcome. -/
def AdcOutcome.onPins (a : AdcOutcome) (p : Pins) : Pins :=
  match a with
  | .done misses r => { p with adcDoneAfter := some misses, adcResult := r }
  | .timeout => { p with adcDoneAfter := none }

/-- The presentation of a trace line: its word on the `op` input, its annotation on the other ports (R109). -/
def TraceOp.present (p : Pins) (o : TraceOp) : Presentation where
  via := .opInput
  word := encode o.instr
  pins :=
    match o with
    | .reset c => { p with cfgIn := packCfg c }
    | .tickAdc a => a.onPins p
    | .tick | .meas | .rdraw | .take | .idle => p

/-- A trace as the environment's schedule from here on (log 6). -/
def State.withTrace (s : State) (ops : List TraceOp) : State :=
  { s with program := ops.map (TraceOp.present s.pins) }

/-- `TICKS n` (R110). -/
def ticks (n : Nat) : List TraceOp := List.replicate n .tick

/-- `CYCLE adc=x` under configuration `c` (R110). -/
def cycle (c : Cfg) (a : AdcOutcome) : List TraceOp :=
  ticks c.settleTicks.toNat ++ [.tickAdc a] ++ ticks (c.sampleTicks.toNat - 1 + c.offTicks.toNat)

/-- `SAMPLE x` under configuration `c` (R110). -/
def sample (c : Cfg) (a : AdcOutcome) : List TraceOp := cycle c a ++ [.meas]

/-- An outcome the environment may answer (R109, R123, R129). -/
def AdcOutcome.legal (c : Cfg) : AdcOutcome → Bool
  | .done misses r => decide (misses < Config.adcPollMax) && decide (r.toNat ≤ c.adcMax.toNat)
  | .timeout => true

/-- Whether the annotation `adc=` stands exactly on the sampling ticks (R109), from a running configuration and its
cursor, or from a block that runs none (`none`: before the first `RESET`, or halted). -/
def adcWellPlaced : Option (Cfg × Phase × Count) → List TraceOp → Bool
  | _, [] => true
  | _, .reset c :: ops => adcWellPlaced (if validate c = 0 then some (c, .ledOnSettle, 0) else none) ops
  | none, .tick :: ops => adcWellPlaced none ops
  | none, .tickAdc _ :: _ => false
  | some (c, p, t), .tick :: ops =>
    !(p == .ledOnSample && t == 0) && adcWellPlaced (some (c, nextCursor c p t)) ops
  | some (c, p, t), .tickAdc a :: ops =>
    (p == .ledOnSample && t == 0) && a.legal c && adcWellPlaced (some (c, nextCursor c p t)) ops
  | cur, .meas :: ops => adcWellPlaced cur ops
  | cur, .rdraw :: ops => adcWellPlaced cur ops
  | cur, .take :: ops => adcWellPlaced cur ops
  | cur, .idle :: ops => adcWellPlaced cur ops

/-- Which events fall into one instant (R222). -/
structure Events where
  reset : Bool
  tick : Bool
  meas : Bool
  take : Bool
  rdraw : Bool
  deriving DecidableEq, Repr

/-- The order in which an environment presents the events of one instant (R222): `RESET` alone, else `TICK`, `MEAS`,
`TAKE`, `RDRAW`. -/
def serialise (e : Events) : List Instr :=
  if e.reset then [.reset]
  else (if e.tick then [.tick] else []) ++ (if e.meas then [.meas] else []) ++ (if e.take then [.take] else []) ++
    (if e.rdraw then [.rdraw] else [])

end Sys2Proof.Machine
end

