-- ==== Sys2Proof/Machine/Units.lean ====
section
/-! DEFINITION. What fixed-point values denote (00_scope R11). -/

namespace Sys2Proof.Machine

/-- A voltage value in volt (R11). -/
def voltsOf (x : Volt) : ℚ := x.toNat / Config.vscale

/-- A slope value in µg/m³ per volt (R11). -/
def slopeOf (s : Slope) : ℚ := s.toNat / Config.dscale

/-- A density value in µg/m³ (R11). -/
def densityOf (d : Dens) : ℚ := d.toNat / (Config.vscale * Config.dscale)

end Sys2Proof.Machine
end

