-- ==== Sys2Proof/Safety.lean ====
section
/-! DEFINITION. What holds in every state of a run, in the terms the statements use. -/

namespace Sys2Proof.Machine

/-- R31's table of legal values with its period check. -/
def Cfg.Legal (c : Cfg) : Prop :=
  1 ≤ c.adcMax.toNat ∧ 1 ≤ c.settleTicks.toNat ∧ 1 ≤ c.sampleTicks.toNat ∧ 1 ≤ c.offTicks.toNat ∧ 1 ≤ c.slopeFx.toNat ∧
    |((c.settleTicks.toNat + c.sampleTicks.toNat + c.offTicks.toNat) * c.tickNs.toNat : ℤ) - Config.periodReqNs| ≤
      Config.periodTolNs

/-- R22: in a block that is not halted the counter is below its phase's bound. -/
def CursorInv (s : State) : Prop := s.halted = false → s.ticksInPhase.toNat < (bound s.cfg s.phase).toNat

/-- R28: `cfg_err` holds the causes of the latched configuration, and the block is halted exactly when there is one. -/
def FaultInv (s : State) : Prop := s.cfgErr = validate s.cfg ∧ (s.halted = true ↔ s.cfgErr ≠ 0)

/-- R24, R129: in a block that is not halted every raw code is within `0 .. ADC_MAX`. -/
def ContractInv (s : State) : Prop :=
  s.halted = false →
    (memRead s).toNat ≤ s.cfg.adcMax.toNat ∧ s.measRaw.toNat ≤ s.cfg.adcMax.toNat ∧
    s.lat.readAnswer.toNat ≤ s.cfg.adcMax.toNat ∧ s.lat.rawOut.toNat ≤ s.cfg.adcMax.toNat

/-- R165: the baseline is at most the configured initial one. -/
def BaselineInv (s : State) : Prop := s.baseline.toNat ≤ s.cfg.base0Fx.toNat

/-- R160, R181: in a block that is not halted the published voltage is the one of the published raw code, and the density
is at most what that voltage gives against a zero baseline. -/
def MeasInv (s : State) : Prop :=
  s.halted = false →
    s.measVoltage = r2v s.cfg s.measRaw ∧ s.measDensity.toNat ≤ s.measVoltage.toNat * s.cfg.slopeFx.toNat

/-- R41, R214: a halted block is at its reset values. -/
def HaltedInv (s : State) : Prop :=
  s.halted = true →
    s.phase = .ledOnSettle ∧ s.ticksInPhase = 0 ∧ s.ledOn = false ∧ memRead s = 0 ∧ s.baseline = s.cfg.base0Fx ∧
    s.measRaw = 0 ∧ s.measVoltage = 0 ∧ s.measDensity = 0 ∧ s.measSeq = 0 ∧ s.ready = false

/-- The buffer is in canonical form and, once a `RESET` has happened (before it every register is unspecified, R42),
everything above holds. -/
structure Inv (s : State) : Prop where
  memory : Memory.wf s.rawbuf = true
  cursor : s.started = true → CursorInv s
  fault : s.started = true → FaultInv s
  contract : s.started = true → ContractInv s
  baseline : s.started = true → BaselineInv s
  meas : s.started = true → MeasInv s
  halted : s.started = true → HaltedInv s

/-- R127: the LED is on from the first tick of a cycle to the last but one of its on-phases. -/
def ledExpected (p : Phase) (t : Count) : Bool :=
  match p with
  | .ledOnSettle => t != 0
  | .ledOnSample => true
  | .ledOff => false

/-- R127: `led_on` is what the cursor says. Kept by the operations of the `op` input. -/
def LedInv (s : State) : Prop := s.started = true → s.ledOn = ledExpected s.phase s.ticksInPhase

/-- The operation of the next step stands on the `op` input, as in every run of the hardware (R103). -/
def OnOpInput (s : State) : Prop := (currentPresentation s).via = .opInput

/-- `n` steps (R13: every finite prefix of a run is a run), stopping at the first stop. -/
def stepN : Nat → State → Result
  | 0, s => .next s
  | n + 1, s => andThen (step s) (stepN n)

/-- Whether the ADC's answers make the outcome of a sampling tick `Done` (R123): it answers 1 within `ADC_POLL_MAX` polls. -/
def Pins.isDone (p : Pins) : Bool :=
  match p.adcDoneAfter with
  | some misses => decide (misses < Config.adcPollMax)
  | none => false

/-- The ADC keeps its contract (R129): a result it gives within the bound is at most `ADC_MAX`. -/
def AdcInContract (c : Cfg) (p : Pins) : Prop := p.isDone = true → p.adcResult.toNat ≤ c.adcMax.toNat

/-- A presentation of `TICK` on the `op` input in which the ADC keeps its contract under `c`. -/
def IsTick (c : Cfg) (p : Presentation) : Prop :=
  p.via = .opInput ∧ p.word = encode .tick ∧ AdcInContract c p.pins

/-- A presentation on the `op` input of anything but `RESET`. -/
def IsOrdinary (p : Presentation) : Prop := p.via = .opInput ∧ p.word ≠ encode .reset

/-- The cursor before tick `k + 1` of a cycle (R125), `k` ticks after `(LedOnSettle, 0)`. -/
def cursorAfter (c : Cfg) (k : Nat) : Phase × Nat :=
  let S := c.settleTicks.toNat
  let M := c.sampleTicks.toNat
  let F := c.offTicks.toNat
  if k < S then (.ledOnSettle, k)
  else if k < S + M then (.ledOnSample, k - S)
  else if k < S + M + F then (.ledOff, k - S - M)
  else (.ledOnSettle, 0)

/-- The number of ticks of a cycle (00_scope, glossary). -/
def Cfg.cycleTicks (c : Cfg) : Nat := c.settleTicks.toNat + c.sampleTicks.toNat + c.offTicks.toNat

/-- The raw code last written by the events of a trace, `w` where they write none: every `WRRAW` of a `TICK` stores the
answer of its `ADC.READ` (R123). -/
def latestWrite : RawCode → List PortEvent → RawCode
  | w, [] => w
  | _, .adcRead r :: es => latestWrite r es
  | w, .ledSet :: es => latestWrite w es
  | w, .ledClr :: es => latestWrite w es
  | w, .adcSel _ :: es => latestWrite w es
  | w, .adcStart :: es => latestWrite w es
  | w, .adcPoll _ :: es => latestWrite w es
  | w, .rdraw _ :: es => latestWrite w es
  | w, .take _ :: es => latestWrite w es

/-- R63: every `RDRAW` of a trace returned the raw code written last before it, `w` being held at its start. -/
def ReadsLatest : RawCode → List PortEvent → Prop
  | _, [] => True
  | _, .adcRead r :: es => ReadsLatest r es
  | w, .rdraw v :: es => v = w ∧ ReadsLatest w es
  | w, .ledSet :: es => ReadsLatest w es
  | w, .ledClr :: es => ReadsLatest w es
  | w, .adcSel _ :: es => ReadsLatest w es
  | w, .adcStart :: es => ReadsLatest w es
  | w, .adcPoll _ :: es => ReadsLatest w es
  | w, .take _ :: es => ReadsLatest w es

/-- Whether the next step executes a `MEAS` that measures. -/
def measuresNext (s : State) : Bool :=
  !s.halted && (currentPresentation s).via == .opInput && (currentPresentation s).word == encode .meas

/-- The voltages computed by the `MEAS` operations of the next `n` steps, in order (R165). -/
def measuredVoltages : Nat → State → List Volt
  | 0, _ => []
  | n + 1, s =>
    match step s with
    | .next t => (if measuresNext s then [r2v s.cfg (memRead s)] else []) ++ measuredVoltages n t
    | .fault _ => []
    | .refused _ => []

/-- Two states whose architectural registers (10_state section 1) are the same. -/
structure SameRegisters (s t : State) : Prop where
  phase : t.phase = s.phase
  ticksInPhase : t.ticksInPhase = s.ticksInPhase
  ledOn : t.ledOn = s.ledOn
  rawbuf : t.rawbuf = s.rawbuf
  baseline : t.baseline = s.baseline
  measRaw : t.measRaw = s.measRaw
  measVoltage : t.measVoltage = s.measVoltage
  measDensity : t.measDensity = s.measDensity
  measSeq : t.measSeq = s.measSeq
  ready : t.ready = s.ready
  halted : t.halted = s.halted
  cfgErr : t.cfgErr = s.cfgErr
  cfg : t.cfg = s.cfg

/-- The measurement registers are the same (R26). -/
def SameMeasurement (s t : State) : Prop :=
  t.measRaw = s.measRaw ∧ t.measVoltage = s.measVoltage ∧ t.measDensity = s.measDensity ∧ t.measSeq = s.measSeq

/-- Whether an event is an `ADC.READ`. -/
def PortEvent.isRead : PortEvent → Bool
  | .adcRead _ => true
  | .ledSet | .ledClr | .adcSel _ | .adcStart | .adcPoll _ | .rdraw _ | .take _ => false

/-- Whether an event is an `ADC.POLL`. -/
def PortEvent.isPoll : PortEvent → Bool
  | .adcPoll _ => true
  | .ledSet | .ledClr | .adcSel _ | .adcStart | .adcRead _ | .rdraw _ | .take _ => false

end Sys2Proof.Machine
end

