-- ==== Sys2Proof/Certificates/Slice0/Obligations.lean ====
section
/-! DEFINITION. The statements for the provers. "R<n>" is a numbered rule of spec/; "log <n>" a row of notes/assumptions/. -/

open Sys2Proof Sys2Proof.Machine

/-! ### Encodings -/

/-- R101, R104, R105: the words of the three command formats and what each stands for. -/
def Obligations.WordsStandForTheirOperations : Prop :=
  decode (.op4 0x0) = .ok .idle ∧ decode (.op4 0x1) = .ok .tick ∧ decode (.op4 0x2) = .ok .meas ∧
  decode (.op4 0x3) = .ok .rdraw ∧ decode (.op4 0x4) = .ok .take ∧ decode (.op4 0x7) = .ok .reset ∧
  decode (.op4 0x8) = .ok .r2v ∧ decode (.op4 0x9) = .ok .updb ∧ decode (.op4 0xA) = .ok .v2d ∧
  decode (.op4 0xB) = .ok .wrraw ∧
  decode (.adc2 0b00) = .ok .adcSel ∧ decode (.adc2 0b01) = .ok .adcStart ∧ decode (.adc2 0b10) = .ok .adcPoll ∧
  decode (.adc2 0b11) = .ok .adcRead ∧ decode (.led1 0) = .ok .ledClr ∧ decode (.led1 1) = .ok .ledSet

/-- Decoding and encoding are inverse to each other on every operation and every word. -/
def Obligations.DecodeEncodeInverse : Prop :=
  (∀ i, decode (encode i) = .ok i) ∧ ∀ w i, decode w = .ok i → encode i = w

/-- R102: the six reserved codes, and no other, decode as invalid, and a step that presents one has no meaning (it is
refused by name, not treated as `IDLE`). -/
def Obligations.ReservedCodesHaveNoStep : Prop :=
  (∀ w : BitVec 4, decode (.op4 w) = .error (.reservedCode w) ↔
    w = 0x5 ∨ w = 0x6 ∨ w = 0xC ∨ w = 0xD ∨ w = 0xE ∨ w = 0xF) ∧
  ∀ (s : State) (p : Presentation) (ps : List Presentation) (w : BitVec 4),
    s.program = p :: ps → p.word = .op4 w → decode (.op4 w) = .error (.reservedCode w) →
      step s = .refused (.reservedCode w)

/-- R103: the internal codes `0x8` to `0xB` are not accepted on the `op` input. -/
def Obligations.InternalCodesRefusedOnOpInput : Prop :=
  ∀ (s : State) (p : Presentation) (ps : List Presentation) (w : BitVec 4),
    s.program = p :: ps → p.via = .opInput → p.word = .op4 w → 0x8 ≤ w.toNat → w.toNat ≤ 0xB →
      ∃ i, decode (.op4 w) = .ok i ∧ step s = .refused (.wrongPort i)

/-- R92: the codes of the phases, and the successor of a phase. -/
def Obligations.PhaseCodesAndSuccessor : Prop :=
  Phase.encode .ledOnSettle = 0b00 ∧ Phase.encode .ledOnSample = 0b01 ∧ Phase.encode .ledOff = 0b10 ∧
  Phase.decode 0b11 = none ∧
  ∀ p : Phase, Phase.decode p.encode = some p ∧ p.next.encode.toNat = (p.encode.toNat + 1) % 3

/-- R96: where each field of the configuration record lies on `cfg_in`, as `RESET` latches it. -/
def Obligations.ConfigFieldsAsLatchedByReset : Prop :=
  ∀ s : State, ∃ t, exec .reset s = .next t ∧
    t.cfg.ledId.toNat = s.pins.cfgIn.toNat % 2 ^ 8 ∧
    t.cfg.ledActiveHigh = decide (s.pins.cfgIn.toNat / 2 ^ 8 % 2 = 1) ∧
    t.cfg.adcCh.toNat = s.pins.cfgIn.toNat / 2 ^ 9 % 2 ^ 8 ∧
    t.cfg.vccFx.toNat = s.pins.cfgIn.toNat / 2 ^ 17 % 2 ^ 32 ∧
    t.cfg.adcMax.toNat = s.pins.cfgIn.toNat / 2 ^ 49 % 2 ^ 16 ∧
    t.cfg.tickNs.toNat = s.pins.cfgIn.toNat / 2 ^ 65 % 2 ^ 32 ∧
    t.cfg.settleTicks.toNat = s.pins.cfgIn.toNat / 2 ^ 97 % 2 ^ 16 ∧
    t.cfg.sampleTicks.toNat = s.pins.cfgIn.toNat / 2 ^ 113 % 2 ^ 16 ∧
    t.cfg.offTicks.toNat = s.pins.cfgIn.toNat / 2 ^ 129 % 2 ^ 16 ∧
    t.cfg.slopeFx.toNat = s.pins.cfgIn.toNat / 2 ^ 145 % 2 ^ 32 ∧
    t.cfg.base0Fx.toNat = s.pins.cfgIn.toNat / 2 ^ 177 % 2 ^ 32

/-- The configuration record's two directions are inverse on every record and every word of 209 bits (R96: no bit is dropped). -/
def Obligations.ConfigRecordRoundTrip : Prop :=
  (∀ c : Cfg, unpackCfg (packCfg c) = c) ∧ ∀ w : CfgWord, packCfg (unpackCfg w) = w

/-- R110: `CYCLE` is exactly one `TICK` word per tick of the cycle, and its one ADC annotation stands on its sampling tick. -/
def Obligations.CycleExpandsToTickWords : Prop :=
  ∀ (c : Cfg) (a : AdcOutcome), 1 ≤ c.settleTicks.toNat → 1 ≤ c.sampleTicks.toNat → 1 ≤ c.offTicks.toNat →
    a.legal c = true →
      traceWords (cycle c a) = List.replicate c.cycleTicks 0x1 ∧
      adcWellPlaced (some (c, .ledOnSettle, 0)) (cycle c a) = true

/-! ### Reset, validation and the halt -/

/-- The reset state of the model, register by register: R40's values for the configuration `CFG_A` of
95_test_vectors section 0. That this configuration is the one presented is the model's choice (log 1); from any state a
`RESET` that presents it leaves these registers. -/
def Obligations.ResetStateIsTheScenarioReset : Prop :=
  State.reset.phase = .ledOnSettle ∧ State.reset.ticksInPhase = 0 ∧ State.reset.ledOn = false ∧
  memRead State.reset = 0 ∧ State.reset.baseline = 600000 ∧ State.reset.measRaw = 0 ∧ State.reset.measVoltage = 0 ∧
  State.reset.measDensity = 0 ∧ State.reset.measSeq = 0 ∧ State.reset.ready = false ∧ State.reset.halted = false ∧
  State.reset.cfgErr = 0 ∧ State.reset.cfg = Cfg.scenario ∧ State.reset.started = true ∧
  ∀ s : State, s.pins.cfgIn = scenarioWord → Memory.wf s.rawbuf = true →
    ∃ t, exec .reset s = .next t ∧ SameRegisters State.reset t

/-- R40, R195: what a `RESET` with a valid configuration leaves in every register, from any state, and the level of the pin
(R23). `RESET` sends no port command, so the trace, the inputs and the schedule are as before; that the model's picture of the
ADC is too rests on log 13; that a first `RESET` has now happened is `started` (log 12). The latches (log 8) are not spoken of. -/
def Obligations.ValidResetLeavesTheResetValues : Prop :=
  ∀ s : State, Memory.wf s.rawbuf = true → (unpackCfg s.pins.cfgIn).Legal →
    ∃ t, exec .reset s = .next t ∧
      t.phase = .ledOnSettle ∧ t.ticksInPhase = 0 ∧ t.ledOn = false ∧ memRead t = 0 ∧
      t.baseline = (unpackCfg s.pins.cfgIn).base0Fx ∧ t.measRaw = 0 ∧ t.measVoltage = 0 ∧ t.measDensity = 0 ∧
      t.measSeq = 0 ∧ t.ready = false ∧ t.halted = false ∧ t.cfgErr = 0 ∧ t.cfg = unpackCfg s.pins.cfgIn ∧
      (∀ a, a ≠ 0 → Memory.read t.rawbuf a = Memory.read s.rawbuf a) ∧
      t.out = s.out ∧ t.adc = s.adc ∧ t.pins = s.pins ∧ t.program = s.program ∧ t.started = true ∧
      ledPin t = !t.cfg.ledActiveHigh

/-- R41, R195: a `RESET` with an invalid configuration takes the one exception: the same values but `halted = 1` and
`cfg_err` the cause bits, which are not all 0. The trace, the inputs and the schedule are as before (R195); that the model's
picture of the ADC is too rests on log 13; `started` is log 12; the latches (log 8) are not spoken of. -/
def Obligations.InvalidResetHaltsWithItsCause : Prop :=
  ∀ s : State, Memory.wf s.rawbuf = true → ¬ (unpackCfg s.pins.cfgIn).Legal →
    ∃ t, exec .reset s = .next t ∧
      t.phase = .ledOnSettle ∧ t.ticksInPhase = 0 ∧ t.ledOn = false ∧ memRead t = 0 ∧
      t.baseline = (unpackCfg s.pins.cfgIn).base0Fx ∧ t.measRaw = 0 ∧ t.measVoltage = 0 ∧ t.measDensity = 0 ∧
      t.measSeq = 0 ∧ t.ready = false ∧ t.halted = true ∧ t.cfgErr = validate (unpackCfg s.pins.cfgIn) ∧
      t.cfgErr ≠ 0 ∧ t.cfg = unpackCfg s.pins.cfgIn ∧
      (∀ a, a ≠ 0 → Memory.read t.rawbuf a = Memory.read s.rawbuf a) ∧
      t.out = s.out ∧ t.adc = s.adc ∧ t.pins = s.pins ∧ t.program = s.program ∧ t.started = true ∧
      ledPin t = !t.cfg.ledActiveHigh

/-- R211, R223: each bit of `cfg_err` after a `RESET`, all failed checks together. -/
def Obligations.EachCauseBitIsItsCheck : Prop :=
  ∀ s : State, ∃ t, exec .reset s = .next t ∧
    (t.cfgErr.getLsbD 0 = true ↔ t.cfg.sampleTicks.toNat = 0) ∧
    (t.cfgErr.getLsbD 1 = true ↔ t.cfg.settleTicks.toNat = 0 ∨ t.cfg.offTicks.toNat = 0) ∧
    (t.cfgErr.getLsbD 2 = true ↔
      (Config.periodTolNs : ℤ) <
        |((t.cfg.settleTicks.toNat + t.cfg.sampleTicks.toNat + t.cfg.offTicks.toNat) * t.cfg.tickNs.toNat : ℤ) -
          Config.periodReqNs|) ∧
    (t.cfgErr.getLsbD 3 = true ↔ t.cfg.adcMax.toNat = 0) ∧
    (t.cfgErr.getLsbD 4 = true ↔ t.cfg.slopeFx.toNat = 0)

/-- R31: the legal values are exactly those a `RESET` accepts; a configuration outside them halts the block. -/
def Obligations.LegalConfigurationsAreTheAcceptedOnes : Prop :=
  ∀ s : State, ∃ t, exec .reset s = .next t ∧ (t.halted = false ↔ (unpackCfg s.pins.cfgIn).Legal)

/-- R215: `RESET` re-evaluates everything from scratch: the registers it leaves depend on the configuration presented and
on nothing of the state before, halted or not. -/
def Obligations.ResetForgetsTheStateBefore : Prop :=
  ∀ s s' : State, Memory.wf s.rawbuf = true → Memory.wf s'.rawbuf = true → s.pins.cfgIn = s'.pins.cfgIn →
    ∃ t t', exec .reset s = .next t ∧ exec .reset s' = .next t' ∧ SameRegisters t t'

/-- R214: a halted block (in a state of the invariant). The latches of the two ports are the model's (log 8). -/
def Obligations.HaltedBlockIsInert : Prop :=
  ∀ s : State, Inv s → s.started = true → s.halted = true →
    exec .tick s = .next s ∧ exec .meas s = .next s ∧ exec .idle s = .next s ∧
    exec .rdraw s = .next { s with lat := { s.lat with rawOut := 0 }, out := s.out ++ [.rdraw 0] } ∧
    exec .take s = .next { s with lat := { s.lat with measOut := 0 }, out := s.out ++ [.take 0] } ∧
    s.ready = false ∧ s.ledOn = false ∧ ledPin s = !s.cfg.ledActiveHigh ∧ haltedOut s = true ∧
    cfgErrOut s = validate s.cfg ∧ cfgErrOut s ≠ 0

/-- R28, R214: while halted no operation but `RESET` changes a register; that an internal operation or port command issued
by itself changes nothing at all is the model's reading of R28 (log 9). -/
def Obligations.HaltedRegistersChangeOnlyByReset : Prop :=
  ∀ (i : Instr) (s : State), Inv s → s.started = true → s.halted = true → i ≠ .reset →
    ∃ t, exec i s = .next t ∧ SameRegisters s t ∧ (i.isExternal = false → t = s)

/-! ### The acquisition state machine -/

/-- R121: a tick of `LedOnSettle`. -/
def Obligations.SettleTickTurnsTheLedOn : Prop :=
  ∀ s : State, s.halted = false → s.phase = .ledOnSettle →
    exec .tick s = .next
      { s with
        ledOn := true
        out := s.out ++ [.ledSet]
        phase := if s.ticksInPhase.toNat + 1 = s.cfg.settleTicks.toNat then .ledOnSample else .ledOnSettle
        ticksInPhase := if s.ticksInPhase.toNat + 1 = s.cfg.settleTicks.toNat then 0 else s.ticksInPhase + 1 }

/-- R123, with R122 for the LED and the cursor: the sampling tick, for each of its two outcomes. `Done(r)` stores `r`;
`Timeout` reads nothing and stores nothing. What is left of the ADC's answers (`p`), the ADC itself (`a`) and the latches
(`l`) are no registers of the block. -/
def Obligations.SamplingTickHasTwoOutcomes : Prop :=
  ∀ s : State, s.halted = false → s.phase = .ledOnSample → s.ticksInPhase = 0 →
    (∀ k, s.pins.adcDoneAfter = some k → k < Config.adcPollMax → s.pins.adcResult.toNat ≤ s.cfg.adcMax.toNat →
      (∃ p a l, exec .tick s = .next
        { s with
          rawbuf := Memory.write s.rawbuf 0 s.pins.adcResult
          ledOn := if s.cfg.sampleTicks.toNat = 1 then false else s.ledOn
          phase := if s.cfg.sampleTicks.toNat = 1 then .ledOff else .ledOnSample
          ticksInPhase := if s.cfg.sampleTicks.toNat = 1 then 0 else 1
          out := s.out ++ [.adcSel s.cfg.adcCh, .adcStart] ++ List.replicate k (.adcPoll false) ++
            [.adcPoll true, .adcRead s.pins.adcResult] ++ (if s.cfg.sampleTicks.toNat = 1 then [.ledClr] else [])
          pins := { s.pins with adcDoneAfter := p }
          adc := a
          lat := l }) ∧
      (Memory.wf s.rawbuf = true →
        ∀ x, Memory.read (Memory.write s.rawbuf 0 s.pins.adcResult) x =
          if x = 0 then s.pins.adcResult else Memory.read s.rawbuf x)) ∧
    ((∀ k, s.pins.adcDoneAfter = some k → Config.adcPollMax ≤ k) →
      ∃ p a l, exec .tick s = .next
        { s with
          ledOn := if s.cfg.sampleTicks.toNat = 1 then false else s.ledOn
          phase := if s.cfg.sampleTicks.toNat = 1 then .ledOff else .ledOnSample
          ticksInPhase := if s.cfg.sampleTicks.toNat = 1 then 0 else 1
          out := s.out ++ [.adcSel s.cfg.adcCh, .adcStart] ++ List.replicate Config.adcPollMax (.adcPoll false) ++
            (if s.cfg.sampleTicks.toNat = 1 then [.ledClr] else [])
          pins := { s.pins with adcDoneAfter := p }
          adc := a
          lat := l })

/-- R129: an ADC answer above `ADC_MAX` is outside the contract; the sampling tick, and an `ADC.READ`, that gets one has no step. -/
def Obligations.AdcResultAboveMaxHasNoStep : Prop :=
  ∀ s : State, s.halted = false → s.cfg.adcMax.toNat < s.pins.adcResult.toNat →
    exec .adcRead s = .refused (.adcResultAboveMax s.pins.adcResult) ∧
    (s.phase = .ledOnSample → s.ticksInPhase = 0 → s.pins.isDone = true →
      exec .tick s = .refused (.adcResultAboveMax s.pins.adcResult))

/-- R122: a later tick of `LedOnSample` does no ADC work; the last one clears the LED. -/
def Obligations.LaterSampleTickOnlyCounts : Prop :=
  ∀ s : State, s.halted = false → s.phase = .ledOnSample → s.ticksInPhase ≠ 0 →
    exec .tick s = .next
      { s with
        ledOn := if s.ticksInPhase.toNat + 1 = s.cfg.sampleTicks.toNat then false else s.ledOn
        out := s.out ++ (if s.ticksInPhase.toNat + 1 = s.cfg.sampleTicks.toNat then [.ledClr] else [])
        phase := if s.ticksInPhase.toNat + 1 = s.cfg.sampleTicks.toNat then .ledOff else .ledOnSample
        ticksInPhase := if s.ticksInPhase.toNat + 1 = s.cfg.sampleTicks.toNat then 0 else s.ticksInPhase + 1 }

/-- R124: a tick of `LedOff` emits nothing and leaves the LED as it is. -/
def Obligations.OffTickOnlyCounts : Prop :=
  ∀ s : State, s.halted = false → s.phase = .ledOff →
    exec .tick s = .next
      { s with
        phase := if s.ticksInPhase.toNat + 1 = s.cfg.offTicks.toNat then .ledOnSettle else .ledOff
        ticksInPhase := if s.ticksInPhase.toNat + 1 = s.cfg.offTicks.toNat then 0 else s.ticksInPhase + 1 }

/-- R128: a halted tick changes no state and emits no command. -/
def Obligations.HaltedTickDoesNothing : Prop := ∀ s : State, s.halted = true → exec .tick s = .next s

/-- R213: a timeout sets no flag and changes no register: where a sampling tick differs from the same tick with outcome
`Done` only in the ADC's answers, the registers it leaves differ only in `raw_sample`, which the timeout leaves as it was. -/
def Obligations.TimeoutTouchesNoRegister : Prop :=
  ∀ (s : State) (p : Pins), s.pins.isDone = false → p.isDone = true → p.adcResult.toNat ≤ s.cfg.adcMax.toNat →
    ∃ t u, exec .tick s = .next t ∧ exec .tick { s with pins := p } = .next u ∧
      memRead t = memRead s ∧ SameRegisters { u with rawbuf := s.rawbuf } t

/-- R125: cycle closure. Under a running configuration, the cursor after `n` ticks of a cycle, up to and including the
whole of it; no shorter number of ticks returns to `(LedOnSettle, 0)`. -/
def Obligations.CursorAlongACycle : Prop :=
  ∀ (s : State) (ps rest : List Presentation), s.started = true → s.halted = false →
    1 ≤ s.cfg.settleTicks.toNat → 1 ≤ s.cfg.sampleTicks.toNat → 1 ≤ s.cfg.offTicks.toNat →
    s.phase = .ledOnSettle → s.ticksInPhase = 0 →
    s.program = ps ++ rest → (∀ p ∈ ps, IsTick s.cfg p) → ps.length ≤ s.cfg.cycleTicks →
    ∃ t, stepN ps.length s = .next t ∧ t.program = rest ∧ t.cfg = s.cfg ∧
      (t.phase, t.ticksInPhase.toNat) = cursorAfter s.cfg ps.length ∧
      (t.phase = .ledOnSettle ∧ t.ticksInPhase = 0 ↔ ps.length = 0 ∨ ps.length = s.cfg.cycleTicks)

/-- R126, R127: what the ticks of a cycle, up to the `n`-th, have emitted and stored. `ADC.START` comes with tick `S + 1`
and with no other; `WRRAW` in that tick exactly when its outcome is `Done`; `LED.SET` in ticks `1 .. S`; `LED.CLR` in tick
`S + M`; and the LED is on after each of the ticks `1 .. S + M - 1`, off after the others. -/
def Obligations.CycleTriggersOnceAndPulsesTheLed : Prop :=
  ∀ (s : State) (ps rest : List Presentation), s.started = true → s.halted = false → Memory.wf s.rawbuf = true →
    1 ≤ s.cfg.settleTicks.toNat → 1 ≤ s.cfg.sampleTicks.toNat → 1 ≤ s.cfg.offTicks.toNat →
    s.phase = .ledOnSettle → s.ticksInPhase = 0 →
    s.program = ps ++ rest → (∀ p ∈ ps, IsTick s.cfg p) → ps.length ≤ s.cfg.cycleTicks →
    ∃ t es, stepN ps.length s = .next t ∧ t.out = s.out ++ es ∧
      es.count .adcStart = (if s.cfg.settleTicks.toNat + 1 ≤ ps.length then 1 else 0) ∧
      es.count .ledSet = min ps.length s.cfg.settleTicks.toNat ∧
      es.count .ledClr = (if s.cfg.settleTicks.toNat + s.cfg.sampleTicks.toNat ≤ ps.length then 1 else 0) ∧
      (1 ≤ ps.length →
        t.ledOn = decide (ps.length < s.cfg.settleTicks.toNat + s.cfg.sampleTicks.toNat)) ∧
      match ps[s.cfg.settleTicks.toNat]? with
      | none => memRead t = memRead s ∧ es.countP PortEvent.isRead = 0
      | some p =>
        memRead t = (if p.pins.isDone then p.pins.adcResult else memRead s) ∧
        es.countP PortEvent.isRead = (if p.pins.isDone then 1 else 0)

/-- R69's ground: whatever the cursor, as many consecutive ticks as a cycle has return to it, and exactly one of them
triggers the ADC; so a raw code is never older than one cycle while every outcome is `Done`. -/
def Obligations.AnyCycleOfTicksSamplesOnce : Prop :=
  ∀ (s : State) (ps rest : List Presentation), Inv s → s.started = true → s.halted = false →
    s.program = ps ++ rest → (∀ p ∈ ps, IsTick s.cfg p) → ps.length = s.cfg.cycleTicks →
    ∃ t es, stepN ps.length s = .next t ∧ t.phase = s.phase ∧ t.ticksInPhase = s.ticksInPhase ∧
      t.out = s.out ++ es ∧ es.count .adcStart = 1

/-- R130 to R133: the ADC's port commands, their codes and operands, and that they write no register. The spec makes an ADC's
answer a draw (R132, R133); that a poll answers 1 exactly when `adcDoneAfter` is `some 0` and else counts it down by one, and that
`adcResult` is what a read gets, is the model's form of that draw (log 5). What the ADC holds afterwards is the model's (log 13),
and so are the latches (log 8) and that a port command can be run by itself (log 7). -/
def Obligations.AdcCommandsGoOutOnThePort : Prop :=
  ∀ s : State, s.halted = false →
    exec .adcSel s = .next
      { s with adc := { s.adc with channel := s.cfg.adcCh }, out := s.out ++ [.adcSel s.cfg.adcCh] } ∧
    (PortEvent.adcSel s.cfg.adcCh).adcCmd = some 0b00 ∧ (PortEvent.adcSel s.cfg.adcCh).adcCh = some s.cfg.adcCh ∧
    exec .adcStart s = .next { s with adc := { s.adc with converting := true }, out := s.out ++ [.adcStart] } ∧
    PortEvent.adcStart.adcCmd = some 0b01 ∧
    (s.pins.adcDoneAfter = some 0 → exec .adcPoll s = .next
      { s with
        adc := { s.adc with converting := false }
        lat := { s.lat with pollAnswer := true }
        out := s.out ++ [.adcPoll true] }) ∧
    (s.pins.adcDoneAfter ≠ some 0 → exec .adcPoll s = .next
      { s with
        pins := { s.pins with adcDoneAfter := s.pins.adcDoneAfter.map (· - 1) }
        lat := { s.lat with pollAnswer := false }
        out := s.out ++ [.adcPoll false] }) ∧
    (PortEvent.adcPoll s.pins.adcDone).adcCmd = some 0b10 ∧
    (s.pins.adcResult.toNat ≤ s.cfg.adcMax.toNat → exec .adcRead s = .next
      { s with lat := { s.lat with readAnswer := s.pins.adcResult }, out := s.out ++ [.adcRead s.pins.adcResult] }) ∧
    (PortEvent.adcRead s.pins.adcResult).adcCmd = some 0b11

/-- R134, R135: the LED's port commands, their codes, and the level of the pin after each. -/
def Obligations.LedCommandsDriveThePin : Prop :=
  ∀ s : State, s.halted = false →
    (∃ t, exec .ledSet s = .next t ∧ t = { s with ledOn := true, out := s.out ++ [.ledSet] } ∧
      ledPin t = s.cfg.ledActiveHigh ∧ PortEvent.ledSet.ledCmd = some 1) ∧
    (∃ t, exec .ledClr s = .next t ∧ t = { s with ledOn := false, out := s.out ++ [.ledClr] } ∧
      ledPin t = !s.cfg.ledActiveHigh ∧ PortEvent.ledClr.ledCmd = some 0)

/-! ### The raw-sample buffer -/

/-- R150: `WRRAW` stores its operand, the answer to `ADC.READ`, into the one element; nothing else changes. That a `WRRAW`
run by itself finds its operand in a latch is the model's (log 8). -/
def Obligations.WrrawReplacesTheElement : Prop :=
  ∀ s : State, s.halted = false → Memory.wf s.rawbuf = true →
    ∃ t, exec .wrraw s = .next t ∧ t = { s with rawbuf := t.rawbuf } ∧ memRead t = s.lat.readAnswer ∧
      ∀ a, a ≠ 0 → Memory.read t.rawbuf a = Memory.read s.rawbuf a

/-- R64, R152: `RDRAW` returns the whole element and changes no register, so a second one returns the same; a write of the
same value twice leaves the same state. The latches `l` are no registers. -/
def Obligations.ReadsHaveNoSideEffect : Prop :=
  (∀ s : State, ∃ t l, exec .rdraw s = .next t ∧ t = { s with lat := l, out := s.out ++ [.rdraw (memRead s)] } ∧
    SameRegisters s t ∧ memRead t = memRead s) ∧
  ∀ s t : State, Memory.wf s.rawbuf = true → exec .wrraw s = .next t → exec .wrraw t = .next t

/-- R63: in a run without a further `RESET`, every `RDRAW` returns exactly the raw code written last before it, or the one
held at the start, which right after a `RESET` is 0; and so does the element itself. -/
def Obligations.EveryReadReturnsTheLatestWrite : Prop :=
  ∀ (n : Nat) (s t : State), Memory.wf s.rawbuf = true → (∀ p ∈ s.program, IsOrdinary p) → stepN n s = .next t →
    (∃ es, t.out = s.out ++ es ∧ ReadsLatest (memRead s) es ∧ memRead t = latestWrite (memRead s) es) ∧
    ∀ r : State, Memory.wf r.rawbuf = true → exec .reset r = .next s →
      ∃ es, t.out = s.out ++ es ∧ ReadsLatest 0 es ∧ memRead t = latestWrite 0 es

/-! ### The converter and the baseline filter -/

/-- R160: `R2V`, the floor of one exact division; it writes no register. Its latches are the model's (log 8). -/
def Obligations.R2vFloorsTheExactQuotient : Prop :=
  ∀ s : State, s.halted = false → s.lat.rawOut.toNat ≤ s.cfg.adcMax.toNat → 1 ≤ s.cfg.adcMax.toNat →
    ∃ v : Volt, exec .r2v s = .next { s with lat := { s.lat with volt := v } } ∧
      v.toNat = s.lat.rawOut.toNat * s.cfg.vccFx.toNat / s.cfg.adcMax.toNat

/-- R162: the properties of `R2V`. -/
def Obligations.VoltageProperties : Prop :=
  ∀ c : Cfg, 1 ≤ c.adcMax.toNat →
    r2v c 0 = 0 ∧ r2v c c.adcMax = c.vccFx ∧
    (∀ r₁ r₂ : RawCode, r₁.toNat ≤ r₂.toNat → r₂.toNat ≤ c.adcMax.toNat → (r2v c r₁).toNat ≤ (r2v c r₂).toNat) ∧
    (c.adcMax.toNat ≤ c.vccFx.toNat →
      ∀ r₁ r₂ : RawCode, r₁.toNat < r₂.toNat → r₂.toNat ≤ c.adcMax.toNat → (r2v c r₁).toNat < (r2v c r₂).toNat) ∧
    (c.vccFx.toNat < c.adcMax.toNat →
      ∃ r₁ r₂ : RawCode, r₁.toNat < r₂.toNat ∧ r₂.toNat ≤ c.adcMax.toNat ∧ r2v c r₁ = r2v c r₂) ∧
    (c.vccFx = 0 → ∀ r : RawCode, r.toNat ≤ c.adcMax.toNat → r2v c r = 0) ∧
    ∀ r : RawCode, r.toNat ≤ c.adcMax.toNat → (r2v c r).toNat ≤ c.vccFx.toNat

/-- R161: `R2V` is the document's real-valued voltage rounded down to a multiple of `1 / VSCALE` volt, exact where
`ADC_MAX` divides the product; whatever `VSCALE` is (log 4). -/
def Obligations.VoltageIsTheRealOneRoundedDown : Prop :=
  ∀ (c : Cfg) (raw : RawCode), 1 ≤ c.adcMax.toNat → raw.toNat ≤ c.adcMax.toNat →
    let V : ℚ := raw.toNat * (c.vccFx.toNat / Config.vscale) / c.adcMax.toNat
    voltsOf (r2v c raw) ≤ V ∧ V < ((r2v c raw).toNat + 1) / Config.vscale ∧
      (c.adcMax.toNat ∣ raw.toNat * c.vccFx.toNat → voltsOf (r2v c raw) = V)

/-- R164: `UPDB` lowers the baseline to its operand when that is smaller, and does nothing else. The latch its operand comes
from is the model's (log 8). -/
def Obligations.UpdbTakesTheMinimum : Prop :=
  ∀ s : State, s.halted = false →
    ∃ b : Volt, exec .updb s = .next { s with baseline := b } ∧ b.toNat = min s.baseline.toNat s.lat.volt.toNat

/-- R168: `V2D`, the saturating excess over the baseline times the slope, exact in 64 bits; it writes no register. Its latches
are the model's (log 8). -/
def Obligations.V2dScalesTheExcess : Prop :=
  ∀ s : State, s.halted = false →
    ∃ d : Dens, exec .v2d s = .next { s with lat := { s.lat with dens := d } } ∧
      (s.lat.volt.toNat ≤ s.baseline.toNat → d.toNat = 0) ∧
      (s.baseline.toNat ≤ s.lat.volt.toNat →
        d.toNat = (s.lat.volt.toNat - s.baseline.toNat) * s.cfg.slopeFx.toNat)

/-- R169: the properties of `V2D`: zero up to the baseline, strictly increasing above it, no upper clamp. -/
def Obligations.DensityProperties : Prop :=
  ∀ (b : Volt) (slope : Slope), 1 ≤ slope.toNat →
    (∀ v : Volt, v.toNat ≤ b.toNat → v2d b slope v = 0) ∧
    (∀ v₁ v₂ : Volt, b.toNat ≤ v₁.toNat → v₁.toNat < v₂.toNat →
      (v2d b slope v₁).toNat < (v2d b slope v₂).toNat) ∧
    ∀ vcc v : Volt, b.toNat ≤ vcc.toNat → v.toNat ≤ vcc.toNat →
      (v2d b slope v).toNat ≤ (v2d b slope vcc).toNat ∧
      (v2d b slope vcc).toNat = (vcc.toNat - b.toNat) * slope.toNat

/-- R11, R168: the density a `V2D` denotes is exactly the document's `max(0, voltage - baseline) * slope`, whatever
`VSCALE` and `DSCALE` are (log 4). -/
def Obligations.DensityIsTheDocumentsFormula : Prop :=
  ∀ (b v : Volt) (slope : Slope), densityOf (v2d b slope v) = max 0 (voltsOf v - voltsOf b) * slopeOf slope

/-! ### The measurement sequencer -/

/-- R180: `MEAS` in contract: every register it writes, and that it changes nothing else. -/
def Obligations.MeasPublishesAMeasurement : Prop :=
  ∀ s : State, s.halted = false → (memRead s).toNat ≤ s.cfg.adcMax.toNat → 1 ≤ s.cfg.adcMax.toNat →
    ∃ (v b : Volt) (d : Dens) (q : SeqNo),
      exec .meas s = .next
        { s with
          baseline := b
          measRaw := memRead s
          measVoltage := v
          measDensity := d
          measSeq := q
          ready := true } ∧
      v.toNat = (memRead s).toNat * s.cfg.vccFx.toNat / s.cfg.adcMax.toNat ∧
      b.toNat = min s.baseline.toNat v.toNat ∧
      d.toNat = (v.toNat - b.toNat) * s.cfg.slopeFx.toNat ∧
      q.toNat = (s.measSeq.toNat + 1) % 2 ^ 32

/-- R162: outside the contract of `R2V` the spec defines no voltage; the operations complete all the same, with a free value
in its place (log 10) and everything computed from it. -/
def Obligations.OutOfContractVoltageIsFree : Prop :=
  ∀ s : State, s.halted = false →
    (s.cfg.adcMax.toNat < s.lat.rawOut.toNat ∨ s.cfg.adcMax = 0 →
      exec .r2v s = .next
        { s with lat := { s.lat with volt := Config.undefinedVoltage s.lat.rawOut s.cfg.vccFx s.cfg.adcMax } }) ∧
    (s.cfg.adcMax.toNat < (memRead s).toNat ∨ s.cfg.adcMax = 0 →
      ∃ (v b : Volt) (d : Dens),
        exec .meas s = .next
          { s with
            baseline := b
            measRaw := memRead s
            measVoltage := v
            measDensity := d
            measSeq := s.measSeq + 1
            ready := true } ∧
        v = Config.undefinedVoltage (memRead s) s.cfg.vccFx s.cfg.adcMax ∧ b.toNat = min s.baseline.toNat v.toNat ∧
        d.toNat = (v.toNat - b.toNat) * s.cfg.slopeFx.toNat)

/-- R170: after a `MEAS` the voltage is at least the baseline, and the density is 0 up to the old baseline and the excess
over it times the slope above. -/
def Obligations.MeasDensityAgainstTheOldBaseline : Prop :=
  ∀ s t : State, s.halted = false → exec .meas s = .next t →
    t.baseline.toNat ≤ t.measVoltage.toNat ∧
    t.measDensity.toNat =
      if t.measVoltage.toNat ≤ s.baseline.toNat then 0
      else (t.measVoltage.toNat - s.baseline.toNat) * s.cfg.slopeFx.toNat

/-- R153, R181: `MEAS` gives what `RDRAW`, `R2V`, `UPDB` and `V2D`, executed one after the other, give: the same raw
code, voltage, baseline and density (in contract or not). The latches that carry the operands are the model's (log 8, 22). -/
def Obligations.MeasIsItsMicroOperations : Prop :=
  ∀ s : State, s.halted = false →
    ∃ s₁ s₂ s₃ s₄ t,
      exec .rdraw s = .next s₁ ∧ exec .r2v s₁ = .next s₂ ∧ exec .updb s₂ = .next s₃ ∧ exec .v2d s₃ = .next s₄ ∧
      exec .meas s = .next t ∧
      t.measRaw = s₄.lat.rawOut ∧ t.measVoltage = s₄.lat.volt ∧ t.baseline = s₄.baseline ∧ t.measDensity = s₄.lat.dens

/-- R184: several `MEAS` on the same raw sample publish measurements that differ only in `seq`. -/
def Obligations.RepeatedMeasDiffersOnlyInSeq : Prop :=
  ∀ s : State, s.halted = false →
    ∃ t u, exec .meas s = .next t ∧ exec .meas t = .next u ∧ u = { t with measSeq := t.measSeq + 1 }

/-- R247: a `MEAS` before the first sample (`raw_sample` still 0) sets the baseline to 0 and publishes density 0; after it
every later density is the voltage times the slope. -/
def Obligations.EarlyMeasLosesTheCalibration : Prop :=
  ∀ s : State, s.halted = false → 1 ≤ s.cfg.adcMax.toNat → memRead s = 0 →
    ∃ t, exec .meas s = .next t ∧ t.baseline = 0 ∧ t.measVoltage = 0 ∧ t.measDensity = 0 ∧
      ∀ u v : State, u.halted = false → u.baseline = 0 → exec .meas u = .next v →
        v.baseline = 0 ∧ v.measDensity.toNat = v.measVoltage.toNat * u.cfg.slopeFx.toNat

/-- R165: the baseline after a run without a further `RESET` is the minimum of the one at its start, which right after a
`RESET` is `BASE0_FX`, and the voltages its `MEAS` operations computed; so it never rises. -/
def Obligations.BaselineIsTheRunningMinimum : Prop :=
  ∀ (n : Nat) (s t : State), (∀ p ∈ s.program, IsOrdinary p) → stepN n s = .next t →
    t.baseline.toNat = (measuredVoltages n s).foldl (fun b v => min b v.toNat) s.baseline.toNat ∧
    t.baseline.toNat ≤ s.baseline.toNat ∧
    ∀ r : State, exec .reset r = .next s →
      t.baseline.toNat =
        (measuredVoltages n s).foldl (fun b v => min b v.toNat) (unpackCfg r.pins.cfgIn).base0Fx.toNat

/-- R185, R97: `TAKE` returns the record `MEAS145` and clears `ready`; nothing else changes but the trace and the
latches `l`, which are no registers. -/
def Obligations.TakeReturnsTheRecord : Prop :=
  ∀ s : State, ∃ (w : MeasWord) (l : Latches),
    exec .take s = .next { s with ready := false, lat := l, out := s.out ++ [.take w] } ∧
    w.toNat = s.measRaw.toNat + 2 ^ 16 * s.measVoltage.toNat + 2 ^ 48 * s.measDensity.toNat +
      2 ^ 112 * s.measSeq.toNat + 2 ^ 144 * s.ready.toNat

/-! ### The whole machine -/

/-- R198: `IDLE` changes nothing. -/
def Obligations.IdleChangesNothing : Prop := ∀ s : State, exec .idle s = .next s

/-- 10_state section 1, R35, R151: which operations can write each register; every other one leaves it, and every element
of the buffer, as it was. -/
def Obligations.OnlyOwnersWriteARegister : Prop :=
  ∀ (i : Instr) (s t : State), exec i s = .next t →
    (i ∉ [.tick, .reset] → t.phase = s.phase ∧ t.ticksInPhase = s.ticksInPhase) ∧
    (i ∉ [.tick, .ledSet, .ledClr, .reset] → t.ledOn = s.ledOn) ∧
    (i ∉ [.tick, .wrraw, .reset] → ∀ a, Memory.read t.rawbuf a = Memory.read s.rawbuf a) ∧
    (i ∉ [.meas, .updb, .reset] → t.baseline = s.baseline) ∧
    (i ∉ [.meas, .reset] → SameMeasurement s t) ∧
    (i ∉ [.meas, .take, .reset] → t.ready = s.ready) ∧
    (i ≠ .reset → t.halted = s.halted ∧ t.cfgErr = s.cfgErr ∧ t.cfg = s.cfg)

/-- R35, R226: the interrupt context does not see the main context's registers, nor the main context the cursor and the
LED: an operation of one context does the same whatever the other's registers hold, and leaves them alone. -/
def Obligations.ContextsDoNotSeeEachOther : Prop :=
  ∀ (s : State) (b v : Volt) (r : RawCode) (d : Dens) (q : SeqNo) (y : Bool) (p : Phase) (c : Count) (l : Bool),
    (∀ t, exec .tick s = .next t →
      exec .tick { s with baseline := b, measRaw := r, measVoltage := v, measDensity := d, measSeq := q, ready := y } =
        .next { t with baseline := b, measRaw := r, measVoltage := v, measDensity := d, measSeq := q, ready := y }) ∧
    ∀ i t, i = Instr.meas ∨ i = Instr.rdraw ∨ i = Instr.take → exec i s = .next t →
      exec i { s with phase := p, ticksInPhase := c, ledOn := l } =
        .next { t with phase := p, ticksInPhase := c, ledOn := l }

/-- R34: the ADC's hidden state and the private operands are no state of the block: an external operation answers a next
state whatever they hold, with the same registers, trace and inputs. -/
def Obligations.HiddenStateIsNeverRead : Prop :=
  ∀ (i : Instr) (s t : State) (l : Latches) (a : AdcSide), i.isExternal = true → exec i s = .next t →
    ∃ l' a', exec i { s with lat := l, adc := a } = .next { t with lat := l', adc := a' }

/-- A step executes the presented operation: it takes it off the schedule, puts its inputs on the ports and runs it; with
nothing presented it is `IDLE`. On the `op` input this is R8, R14 and R108, the schedule being the model's (log 6). That a
sequencer (`Via.sequencer`) can present an internal operation or a port command as a step of its own is the model's choice
(log 7): on the `op` input there are external operations only (R100, R103). -/
def Obligations.StepExecutesThePresentedOperation : Prop :=
  (∀ (s : State) (p : Presentation) (ps : List Presentation) (i : Instr),
    s.program = p :: ps → decode p.word = .ok i → i.wellFormedVia p.via = true → s.started = true ∨ i = .reset →
      step s = exec i { s with pins := p.pins, program := ps }) ∧
  ∀ s : State, s.program = [] → s.started = true → step s = .next s

/-- R42: before the first `RESET` no operation but `RESET` has a step, and a `RESET` starts a run from whatever the
registers hold. -/
def Obligations.NothingRunsBeforeTheFirstReset : Prop :=
  ∀ (s : State) (p : Presentation) (ps : List Presentation) (i : Instr),
    s.started = false → s.program = p :: ps → decode p.word = .ok i → i.wellFormedVia p.via = true →
      (i ≠ .reset → step s = .refused .beforeFirstReset) ∧
      (i = .reset → ∃ t, step s = .next t ∧ t.started = true)

/-- R227: no operation can be stuck: on the `op` input, with the ADC in its contract, every external operation completes in
its own step, a `TICK` after at most `ADC_POLL_MAX` polls and any other without one. -/
def Obligations.EveryExternalOperationCompletes : Prop :=
  ∀ (s : State) (p : Presentation) (ps : List Presentation) (i : Instr),
    s.program = p :: ps → p.via = .opInput → decode p.word = .ok i → i.isExternal = true →
    s.started = true ∨ i = .reset → AdcInContract s.cfg p.pins →
      ∃ t es, step s = .next t ∧ t.out = s.out ++ es ∧ es.countP PortEvent.isPoll ≤ Config.adcPollMax ∧
        (i ≠ .tick → es.countP PortEvent.isPoll = 0)

/-- Every step keeps the invariant: the canonical buffer (log 14), the cursor below its bound (R22), `halted` exactly with a
cause (R28), raw codes within `0 .. ADC_MAX` (R24, R129), the baseline at most the initial one (R165), a published
measurement that belongs together (R181), a halted block at its reset values (R41). -/
def Obligations.StepKeepsTheInvariant : Prop := ∀ s t : State, Inv s → step s = .next t → Inv t

/-- The reset state meets the invariant, and the LED's too. -/
def Obligations.ResetStateMeetsTheInvariant : Prop := Inv State.reset ∧ LedInv State.reset

/-- R127: every step of the `op` input keeps `led_on` what the cursor says: on from the first tick of a cycle to the last
but one of its on-phases, off otherwise. -/
def Obligations.StepKeepsTheLedWithTheCursor : Prop :=
  ∀ s t : State, Inv s → LedInv s → OnOpInput s → step s = .next t → LedInv t

/-- R172: computing at the stated widths gives the exact numbers. In a state of the invariant that runs, each result of the
model is the one its fixed-width expression gives (the counter in 16 bits, `R2V` by a 48-bit product, `UPDB` in 32 bits, `V2D`
by a 64-bit product, the period check in 50 bits) and is the exact number; `meas_seq` alone wraps. -/
def Obligations.ArithmeticFitsItsWidths : Prop :=
  ∀ s : State, Inv s → s.started = true → s.halted = false →
    (nextCursor s.cfg s.phase s.ticksInPhase =
        (if s.ticksInPhase + 1 = bound s.cfg s.phase then (s.phase.next, 0) else (s.phase, s.ticksInPhase + 1)) ∧
      (nextCursor s.cfg s.phase s.ticksInPhase).2.toNat =
        (if s.ticksInPhase.toNat + 1 = (bound s.cfg s.phase).toNat then 0 else s.ticksInPhase.toNat + 1)) ∧
    (r2v s.cfg (memRead s) =
        ((memRead s).setWidth 48 * s.cfg.vccFx.setWidth 48 / s.cfg.adcMax.setWidth 48).setWidth 32 ∧
      (r2v s.cfg (memRead s)).toNat = (memRead s).toNat * s.cfg.vccFx.toNat / s.cfg.adcMax.toNat) ∧
    (∀ v : Volt,
      updatedBaseline s.baseline v = (if v < s.baseline then v else s.baseline) ∧
      v2d s.baseline s.cfg.slopeFx v =
        (if v ≤ s.baseline then 0 else v - s.baseline).setWidth 64 * s.cfg.slopeFx.setWidth 64 ∧
      (v2d s.baseline s.cfg.slopeFx v).toNat = (v.toNat - s.baseline.toNat) * s.cfg.slopeFx.toNat) ∧
    (let len : BitVec 50 :=
        (s.cfg.settleTicks.setWidth 50 + s.cfg.sampleTicks.setWidth 50 + s.cfg.offTicks.setWidth 50) *
          s.cfg.tickNs.setWidth 50
      let req : BitVec 50 := BitVec.ofNat 50 Config.periodReqNs
      len.toNat = cycleNs s.cfg ∧
      errPeriod s.cfg = decide (Config.periodTolNs < (if req ≤ len then len - req else req - len).toNat)) ∧
    ∃ t, exec .meas s = .next t ∧ t.measSeq.toNat = (s.measSeq.toNat + 1) % 2 ^ 32

/-! ### Runs -/

/-- R13: the block has no terminal state and no operation that stops it. Every endless environment that begins with a `RESET`,
presents external operations and keeps the ADC in its contract (R14) has an infinite run, from any state. -/
def Obligations.EveryEnvironmentHasAnEndlessRun : Prop :=
  ∀ (env : Environment) (s : State),
    (∀ k, (env k).via = .opInput ∧ ∃ i, decode (env k).word = .ok i ∧ i.isExternal = true) →
    (env 0).word = encode .reset →
    (∀ k t, 1 ≤ k → stepsUnder env s k = .next t → AdcInContract t.cfg (env k).pins) →
      ∃ σ : Nat → State, σ 0 = s ∧ IsRun ⊤ env σ

/-- R13, R258: every cycle eventually samples. In an infinite run under the fairness assumption that the tick source keeps
issuing `TICK`, with no `RESET` from step `n` on, a block that runs at step `n` triggers the ADC again and again; and what the
ADC then answers is in `raw_sample`. The canonical form of the buffer is log 14. -/
def Obligations.EveryCycleEventuallySamples : Prop :=
  ∀ (env : Environment) (σ : Nat → State) (n : Nat), IsRun ⊤ env σ → Memory.wf (σ 0).rawbuf = true → env.Fair →
    1 ≤ n → env.NoResetFrom n → (σ n).halted = false →
      ∀ m, n ≤ m → ∃ k, m ≤ k ∧ (env k).word = encode .tick ∧ SamplesAt σ k ∧
        ((env k).pins.isDone = true → memRead (σ (k + 1)) = (env k).pins.adcResult)

/-- R13: every finite prefix of a run, finite or infinite, is a run; it is what the same operations do as a schedule in State
(log 6); and after its first operation the invariants hold at its end. The canonical form of the buffer is log 14. -/
def Obligations.EveryPrefixOfARunIsARun : Prop :=
  ∀ (len : ℕ∞) (env : Environment) (σ : Nat → State) (m : Nat), IsRun len env σ → Memory.wf (σ 0).rawbuf = true →
    (m : ℕ∞) ≤ len →
      IsRun m env σ ∧
      (∀ rest, stepN m ((σ 0).withProgram ((List.range m).map env ++ rest)) = .next ((σ m).withProgram rest)) ∧
      (1 ≤ m → (σ m).started = true ∧ Inv (σ m) ∧ LedInv (σ m))
end

