-- ==== Sys2Proof/Laws/State.lean ====
section
/-! SUPPORT. What each named update does to each field of State: no later proof unfolds a record update. -/

namespace Sys2Proof.Machine

/-! ### `emit` -/

@[simp] theorem emit_phase (e : PortEvent) (s : State) : (emit e s).phase = s.phase := rfl
@[simp] theorem emit_ticksInPhase (e : PortEvent) (s : State) : (emit e s).ticksInPhase = s.ticksInPhase := rfl
@[simp] theorem emit_ledOn (e : PortEvent) (s : State) : (emit e s).ledOn = s.ledOn := rfl
@[simp] theorem emit_rawbuf (e : PortEvent) (s : State) : (emit e s).rawbuf = s.rawbuf := rfl
@[simp] theorem emit_baseline (e : PortEvent) (s : State) : (emit e s).baseline = s.baseline := rfl
@[simp] theorem emit_measRaw (e : PortEvent) (s : State) : (emit e s).measRaw = s.measRaw := rfl
@[simp] theorem emit_measVoltage (e : PortEvent) (s : State) : (emit e s).measVoltage = s.measVoltage := rfl
@[simp] theorem emit_measDensity (e : PortEvent) (s : State) : (emit e s).measDensity = s.measDensity := rfl
@[simp] theorem emit_measSeq (e : PortEvent) (s : State) : (emit e s).measSeq = s.measSeq := rfl
@[simp] theorem emit_ready (e : PortEvent) (s : State) : (emit e s).ready = s.ready := rfl
@[simp] theorem emit_halted (e : PortEvent) (s : State) : (emit e s).halted = s.halted := rfl
@[simp] theorem emit_cfgErr (e : PortEvent) (s : State) : (emit e s).cfgErr = s.cfgErr := rfl
@[simp] theorem emit_cfg (e : PortEvent) (s : State) : (emit e s).cfg = s.cfg := rfl
@[simp] theorem emit_adc (e : PortEvent) (s : State) : (emit e s).adc = s.adc := rfl
@[simp] theorem emit_lat (e : PortEvent) (s : State) : (emit e s).lat = s.lat := rfl
@[simp] theorem emit_out (e : PortEvent) (s : State) : (emit e s).out = s.out ++ [e] := rfl
@[simp] theorem emit_started (e : PortEvent) (s : State) : (emit e s).started = s.started := rfl
@[simp] theorem emit_pins (e : PortEvent) (s : State) : (emit e s).pins = s.pins := rfl
@[simp] theorem emit_program (e : PortEvent) (s : State) : (emit e s).program = s.program := rfl

/-! ### `setCursor` -/

@[simp] theorem setCursor_phase (p : Phase) (c : Count) (s : State) : (setCursor p c s).phase = p := rfl
@[simp] theorem setCursor_ticksInPhase (p : Phase) (c : Count) (s : State) : (setCursor p c s).ticksInPhase = c := rfl
@[simp] theorem setCursor_ledOn (p : Phase) (c : Count) (s : State) : (setCursor p c s).ledOn = s.ledOn := rfl
@[simp] theorem setCursor_rawbuf (p : Phase) (c : Count) (s : State) : (setCursor p c s).rawbuf = s.rawbuf := rfl
@[simp] theorem setCursor_baseline (p : Phase) (c : Count) (s : State) : (setCursor p c s).baseline = s.baseline := rfl
@[simp] theorem setCursor_measRaw (p : Phase) (c : Count) (s : State) : (setCursor p c s).measRaw = s.measRaw := rfl
@[simp] theorem setCursor_measVoltage (p : Phase) (c : Count) (s : State) : (setCursor p c s).measVoltage = s.measVoltage := rfl
@[simp] theorem setCursor_measDensity (p : Phase) (c : Count) (s : State) : (setCursor p c s).measDensity = s.measDensity := rfl
@[simp] theorem setCursor_measSeq (p : Phase) (c : Count) (s : State) : (setCursor p c s).measSeq = s.measSeq := rfl
@[simp] theorem setCursor_ready (p : Phase) (c : Count) (s : State) : (setCursor p c s).ready = s.ready := rfl
@[simp] theorem setCursor_halted (p : Phase) (c : Count) (s : State) : (setCursor p c s).halted = s.halted := rfl
@[simp] theorem setCursor_cfgErr (p : Phase) (c : Count) (s : State) : (setCursor p c s).cfgErr = s.cfgErr := rfl
@[simp] theorem setCursor_cfg (p : Phase) (c : Count) (s : State) : (setCursor p c s).cfg = s.cfg := rfl
@[simp] theorem setCursor_adc (p : Phase) (c : Count) (s : State) : (setCursor p c s).adc = s.adc := rfl
@[simp] theorem setCursor_lat (p : Phase) (c : Count) (s : State) : (setCursor p c s).lat = s.lat := rfl
@[simp] theorem setCursor_out (p : Phase) (c : Count) (s : State) : (setCursor p c s).out = s.out := rfl
@[simp] theorem setCursor_started (p : Phase) (c : Count) (s : State) : (setCursor p c s).started = s.started := rfl
@[simp] theorem setCursor_pins (p : Phase) (c : Count) (s : State) : (setCursor p c s).pins = s.pins := rfl
@[simp] theorem setCursor_program (p : Phase) (c : Count) (s : State) : (setCursor p c s).program = s.program := rfl

/-! ### `memWrite` -/

@[simp] theorem memWrite_phase (v : RawCode) (s : State) : (memWrite v s).phase = s.phase := rfl
@[simp] theorem memWrite_ticksInPhase (v : RawCode) (s : State) : (memWrite v s).ticksInPhase = s.ticksInPhase := rfl
@[simp] theorem memWrite_ledOn (v : RawCode) (s : State) : (memWrite v s).ledOn = s.ledOn := rfl
@[simp] theorem memWrite_rawbuf (v : RawCode) (s : State) : (memWrite v s).rawbuf = Memory.write s.rawbuf 0 v := rfl
@[simp] theorem memWrite_baseline (v : RawCode) (s : State) : (memWrite v s).baseline = s.baseline := rfl
@[simp] theorem memWrite_measRaw (v : RawCode) (s : State) : (memWrite v s).measRaw = s.measRaw := rfl
@[simp] theorem memWrite_measVoltage (v : RawCode) (s : State) : (memWrite v s).measVoltage = s.measVoltage := rfl
@[simp] theorem memWrite_measDensity (v : RawCode) (s : State) : (memWrite v s).measDensity = s.measDensity := rfl
@[simp] theorem memWrite_measSeq (v : RawCode) (s : State) : (memWrite v s).measSeq = s.measSeq := rfl
@[simp] theorem memWrite_ready (v : RawCode) (s : State) : (memWrite v s).ready = s.ready := rfl
@[simp] theorem memWrite_halted (v : RawCode) (s : State) : (memWrite v s).halted = s.halted := rfl
@[simp] theorem memWrite_cfgErr (v : RawCode) (s : State) : (memWrite v s).cfgErr = s.cfgErr := rfl
@[simp] theorem memWrite_cfg (v : RawCode) (s : State) : (memWrite v s).cfg = s.cfg := rfl
@[simp] theorem memWrite_adc (v : RawCode) (s : State) : (memWrite v s).adc = s.adc := rfl
@[simp] theorem memWrite_lat (v : RawCode) (s : State) : (memWrite v s).lat = s.lat := rfl
@[simp] theorem memWrite_out (v : RawCode) (s : State) : (memWrite v s).out = s.out := rfl
@[simp] theorem memWrite_started (v : RawCode) (s : State) : (memWrite v s).started = s.started := rfl
@[simp] theorem memWrite_pins (v : RawCode) (s : State) : (memWrite v s).pins = s.pins := rfl
@[simp] theorem memWrite_program (v : RawCode) (s : State) : (memWrite v s).program = s.program := rfl

/-! ### `ledSet` -/

@[simp] theorem ledSet_phase (s : State) : (ledSet s).phase = s.phase := rfl
@[simp] theorem ledSet_ticksInPhase (s : State) : (ledSet s).ticksInPhase = s.ticksInPhase := rfl
@[simp] theorem ledSet_ledOn (s : State) : (ledSet s).ledOn = true := rfl
@[simp] theorem ledSet_rawbuf (s : State) : (ledSet s).rawbuf = s.rawbuf := rfl
@[simp] theorem ledSet_baseline (s : State) : (ledSet s).baseline = s.baseline := rfl
@[simp] theorem ledSet_measRaw (s : State) : (ledSet s).measRaw = s.measRaw := rfl
@[simp] theorem ledSet_measVoltage (s : State) : (ledSet s).measVoltage = s.measVoltage := rfl
@[simp] theorem ledSet_measDensity (s : State) : (ledSet s).measDensity = s.measDensity := rfl
@[simp] theorem ledSet_measSeq (s : State) : (ledSet s).measSeq = s.measSeq := rfl
@[simp] theorem ledSet_ready (s : State) : (ledSet s).ready = s.ready := rfl
@[simp] theorem ledSet_halted (s : State) : (ledSet s).halted = s.halted := rfl
@[simp] theorem ledSet_cfgErr (s : State) : (ledSet s).cfgErr = s.cfgErr := rfl
@[simp] theorem ledSet_cfg (s : State) : (ledSet s).cfg = s.cfg := rfl
@[simp] theorem ledSet_adc (s : State) : (ledSet s).adc = s.adc := rfl
@[simp] theorem ledSet_lat (s : State) : (ledSet s).lat = s.lat := rfl
@[simp] theorem ledSet_out (s : State) : (ledSet s).out = s.out ++ [.ledSet] := rfl
@[simp] theorem ledSet_started (s : State) : (ledSet s).started = s.started := rfl
@[simp] theorem ledSet_pins (s : State) : (ledSet s).pins = s.pins := rfl
@[simp] theorem ledSet_program (s : State) : (ledSet s).program = s.program := rfl

/-! ### `ledClr` -/

@[simp] theorem ledClr_phase (s : State) : (ledClr s).phase = s.phase := rfl
@[simp] theorem ledClr_ticksInPhase (s : State) : (ledClr s).ticksInPhase = s.ticksInPhase := rfl
@[simp] theorem ledClr_ledOn (s : State) : (ledClr s).ledOn = false := rfl
@[simp] theorem ledClr_rawbuf (s : State) : (ledClr s).rawbuf = s.rawbuf := rfl
@[simp] theorem ledClr_baseline (s : State) : (ledClr s).baseline = s.baseline := rfl
@[simp] theorem ledClr_measRaw (s : State) : (ledClr s).measRaw = s.measRaw := rfl
@[simp] theorem ledClr_measVoltage (s : State) : (ledClr s).measVoltage = s.measVoltage := rfl
@[simp] theorem ledClr_measDensity (s : State) : (ledClr s).measDensity = s.measDensity := rfl
@[simp] theorem ledClr_measSeq (s : State) : (ledClr s).measSeq = s.measSeq := rfl
@[simp] theorem ledClr_ready (s : State) : (ledClr s).ready = s.ready := rfl
@[simp] theorem ledClr_halted (s : State) : (ledClr s).halted = s.halted := rfl
@[simp] theorem ledClr_cfgErr (s : State) : (ledClr s).cfgErr = s.cfgErr := rfl
@[simp] theorem ledClr_cfg (s : State) : (ledClr s).cfg = s.cfg := rfl
@[simp] theorem ledClr_adc (s : State) : (ledClr s).adc = s.adc := rfl
@[simp] theorem ledClr_lat (s : State) : (ledClr s).lat = s.lat := rfl
@[simp] theorem ledClr_out (s : State) : (ledClr s).out = s.out ++ [.ledClr] := rfl
@[simp] theorem ledClr_started (s : State) : (ledClr s).started = s.started := rfl
@[simp] theorem ledClr_pins (s : State) : (ledClr s).pins = s.pins := rfl
@[simp] theorem ledClr_program (s : State) : (ledClr s).program = s.program := rfl

/-! ### `adcSel` -/

@[simp] theorem adcSel_phase (s : State) : (adcSel s).phase = s.phase := rfl
@[simp] theorem adcSel_ticksInPhase (s : State) : (adcSel s).ticksInPhase = s.ticksInPhase := rfl
@[simp] theorem adcSel_ledOn (s : State) : (adcSel s).ledOn = s.ledOn := rfl
@[simp] theorem adcSel_rawbuf (s : State) : (adcSel s).rawbuf = s.rawbuf := rfl
@[simp] theorem adcSel_baseline (s : State) : (adcSel s).baseline = s.baseline := rfl
@[simp] theorem adcSel_measRaw (s : State) : (adcSel s).measRaw = s.measRaw := rfl
@[simp] theorem adcSel_measVoltage (s : State) : (adcSel s).measVoltage = s.measVoltage := rfl
@[simp] theorem adcSel_measDensity (s : State) : (adcSel s).measDensity = s.measDensity := rfl
@[simp] theorem adcSel_measSeq (s : State) : (adcSel s).measSeq = s.measSeq := rfl
@[simp] theorem adcSel_ready (s : State) : (adcSel s).ready = s.ready := rfl
@[simp] theorem adcSel_halted (s : State) : (adcSel s).halted = s.halted := rfl
@[simp] theorem adcSel_cfgErr (s : State) : (adcSel s).cfgErr = s.cfgErr := rfl
@[simp] theorem adcSel_cfg (s : State) : (adcSel s).cfg = s.cfg := rfl
@[simp] theorem adcSel_adc (s : State) : (adcSel s).adc = { s.adc with channel := s.cfg.adcCh } := rfl
@[simp] theorem adcSel_lat (s : State) : (adcSel s).lat = s.lat := rfl
@[simp] theorem adcSel_out (s : State) : (adcSel s).out = s.out ++ [.adcSel s.cfg.adcCh] := rfl
@[simp] theorem adcSel_started (s : State) : (adcSel s).started = s.started := rfl
@[simp] theorem adcSel_pins (s : State) : (adcSel s).pins = s.pins := rfl
@[simp] theorem adcSel_program (s : State) : (adcSel s).program = s.program := rfl

/-! ### `adcStart` -/

@[simp] theorem adcStart_phase (s : State) : (adcStart s).phase = s.phase := rfl
@[simp] theorem adcStart_ticksInPhase (s : State) : (adcStart s).ticksInPhase = s.ticksInPhase := rfl
@[simp] theorem adcStart_ledOn (s : State) : (adcStart s).ledOn = s.ledOn := rfl
@[simp] theorem adcStart_rawbuf (s : State) : (adcStart s).rawbuf = s.rawbuf := rfl
@[simp] theorem adcStart_baseline (s : State) : (adcStart s).baseline = s.baseline := rfl
@[simp] theorem adcStart_measRaw (s : State) : (adcStart s).measRaw = s.measRaw := rfl
@[simp] theorem adcStart_measVoltage (s : State) : (adcStart s).measVoltage = s.measVoltage := rfl
@[simp] theorem adcStart_measDensity (s : State) : (adcStart s).measDensity = s.measDensity := rfl
@[simp] theorem adcStart_measSeq (s : State) : (adcStart s).measSeq = s.measSeq := rfl
@[simp] theorem adcStart_ready (s : State) : (adcStart s).ready = s.ready := rfl
@[simp] theorem adcStart_halted (s : State) : (adcStart s).halted = s.halted := rfl
@[simp] theorem adcStart_cfgErr (s : State) : (adcStart s).cfgErr = s.cfgErr := rfl
@[simp] theorem adcStart_cfg (s : State) : (adcStart s).cfg = s.cfg := rfl
@[simp] theorem adcStart_adc (s : State) : (adcStart s).adc = { s.adc with converting := true } := rfl
@[simp] theorem adcStart_lat (s : State) : (adcStart s).lat = s.lat := rfl
@[simp] theorem adcStart_out (s : State) : (adcStart s).out = s.out ++ [.adcStart] := rfl
@[simp] theorem adcStart_started (s : State) : (adcStart s).started = s.started := rfl
@[simp] theorem adcStart_pins (s : State) : (adcStart s).pins = s.pins := rfl
@[simp] theorem adcStart_program (s : State) : (adcStart s).program = s.program := rfl

/-! ### `adcPoll` -/

@[simp] theorem adcPoll_phase (s : State) : (adcPoll s).phase = s.phase := rfl
@[simp] theorem adcPoll_ticksInPhase (s : State) : (adcPoll s).ticksInPhase = s.ticksInPhase := rfl
@[simp] theorem adcPoll_ledOn (s : State) : (adcPoll s).ledOn = s.ledOn := rfl
@[simp] theorem adcPoll_rawbuf (s : State) : (adcPoll s).rawbuf = s.rawbuf := rfl
@[simp] theorem adcPoll_baseline (s : State) : (adcPoll s).baseline = s.baseline := rfl
@[simp] theorem adcPoll_measRaw (s : State) : (adcPoll s).measRaw = s.measRaw := rfl
@[simp] theorem adcPoll_measVoltage (s : State) : (adcPoll s).measVoltage = s.measVoltage := rfl
@[simp] theorem adcPoll_measDensity (s : State) : (adcPoll s).measDensity = s.measDensity := rfl
@[simp] theorem adcPoll_measSeq (s : State) : (adcPoll s).measSeq = s.measSeq := rfl
@[simp] theorem adcPoll_ready (s : State) : (adcPoll s).ready = s.ready := rfl
@[simp] theorem adcPoll_halted (s : State) : (adcPoll s).halted = s.halted := rfl
@[simp] theorem adcPoll_cfgErr (s : State) : (adcPoll s).cfgErr = s.cfgErr := rfl
@[simp] theorem adcPoll_cfg (s : State) : (adcPoll s).cfg = s.cfg := rfl
@[simp] theorem adcPoll_adc (s : State) : (adcPoll s).adc = { s.adc with converting := s.adc.converting && !s.pins.adcDone } := rfl
@[simp] theorem adcPoll_lat (s : State) : (adcPoll s).lat = { s.lat with pollAnswer := s.pins.adcDone } := rfl
@[simp] theorem adcPoll_out (s : State) : (adcPoll s).out = s.out ++ [.adcPoll s.pins.adcDone] := rfl
@[simp] theorem adcPoll_started (s : State) : (adcPoll s).started = s.started := rfl
@[simp] theorem adcPoll_pins (s : State) : (adcPoll s).pins = s.pins.afterPoll := rfl
@[simp] theorem adcPoll_program (s : State) : (adcPoll s).program = s.program := rfl

/-! ### `wrraw` -/

@[simp] theorem wrraw_phase (s : State) : (wrraw s).phase = s.phase := rfl
@[simp] theorem wrraw_ticksInPhase (s : State) : (wrraw s).ticksInPhase = s.ticksInPhase := rfl
@[simp] theorem wrraw_ledOn (s : State) : (wrraw s).ledOn = s.ledOn := rfl
@[simp] theorem wrraw_rawbuf (s : State) : (wrraw s).rawbuf = Memory.write s.rawbuf 0 s.lat.readAnswer := rfl
@[simp] theorem wrraw_baseline (s : State) : (wrraw s).baseline = s.baseline := rfl
@[simp] theorem wrraw_measRaw (s : State) : (wrraw s).measRaw = s.measRaw := rfl
@[simp] theorem wrraw_measVoltage (s : State) : (wrraw s).measVoltage = s.measVoltage := rfl
@[simp] theorem wrraw_measDensity (s : State) : (wrraw s).measDensity = s.measDensity := rfl
@[simp] theorem wrraw_measSeq (s : State) : (wrraw s).measSeq = s.measSeq := rfl
@[simp] theorem wrraw_ready (s : State) : (wrraw s).ready = s.ready := rfl
@[simp] theorem wrraw_halted (s : State) : (wrraw s).halted = s.halted := rfl
@[simp] theorem wrraw_cfgErr (s : State) : (wrraw s).cfgErr = s.cfgErr := rfl
@[simp] theorem wrraw_cfg (s : State) : (wrraw s).cfg = s.cfg := rfl
@[simp] theorem wrraw_adc (s : State) : (wrraw s).adc = s.adc := rfl
@[simp] theorem wrraw_lat (s : State) : (wrraw s).lat = s.lat := rfl
@[simp] theorem wrraw_out (s : State) : (wrraw s).out = s.out := rfl
@[simp] theorem wrraw_started (s : State) : (wrraw s).started = s.started := rfl
@[simp] theorem wrraw_pins (s : State) : (wrraw s).pins = s.pins := rfl
@[simp] theorem wrraw_program (s : State) : (wrraw s).program = s.program := rfl

/-! ### `raiseConfigFault` -/

@[simp] theorem raiseConfigFault_phase (cause : Cause) (s : State) : (raiseConfigFault cause s).phase = s.phase := rfl
@[simp] theorem raiseConfigFault_ticksInPhase (cause : Cause) (s : State) : (raiseConfigFault cause s).ticksInPhase = s.ticksInPhase := rfl
@[simp] theorem raiseConfigFault_ledOn (cause : Cause) (s : State) : (raiseConfigFault cause s).ledOn = s.ledOn := rfl
@[simp] theorem raiseConfigFault_rawbuf (cause : Cause) (s : State) : (raiseConfigFault cause s).rawbuf = s.rawbuf := rfl
@[simp] theorem raiseConfigFault_baseline (cause : Cause) (s : State) : (raiseConfigFault cause s).baseline = s.baseline := rfl
@[simp] theorem raiseConfigFault_measRaw (cause : Cause) (s : State) : (raiseConfigFault cause s).measRaw = s.measRaw := rfl
@[simp] theorem raiseConfigFault_measVoltage (cause : Cause) (s : State) : (raiseConfigFault cause s).measVoltage = s.measVoltage := rfl
@[simp] theorem raiseConfigFault_measDensity (cause : Cause) (s : State) : (raiseConfigFault cause s).measDensity = s.measDensity := rfl
@[simp] theorem raiseConfigFault_measSeq (cause : Cause) (s : State) : (raiseConfigFault cause s).measSeq = s.measSeq := rfl
@[simp] theorem raiseConfigFault_ready (cause : Cause) (s : State) : (raiseConfigFault cause s).ready = s.ready := rfl
@[simp] theorem raiseConfigFault_halted (cause : Cause) (s : State) : (raiseConfigFault cause s).halted = true := rfl
@[simp] theorem raiseConfigFault_cfgErr (cause : Cause) (s : State) : (raiseConfigFault cause s).cfgErr = cause := rfl
@[simp] theorem raiseConfigFault_cfg (cause : Cause) (s : State) : (raiseConfigFault cause s).cfg = s.cfg := rfl
@[simp] theorem raiseConfigFault_adc (cause : Cause) (s : State) : (raiseConfigFault cause s).adc = s.adc := rfl
@[simp] theorem raiseConfigFault_lat (cause : Cause) (s : State) : (raiseConfigFault cause s).lat = s.lat := rfl
@[simp] theorem raiseConfigFault_out (cause : Cause) (s : State) : (raiseConfigFault cause s).out = s.out := rfl
@[simp] theorem raiseConfigFault_started (cause : Cause) (s : State) : (raiseConfigFault cause s).started = s.started := rfl
@[simp] theorem raiseConfigFault_pins (cause : Cause) (s : State) : (raiseConfigFault cause s).pins = s.pins := rfl
@[simp] theorem raiseConfigFault_program (cause : Cause) (s : State) : (raiseConfigFault cause s).program = s.program := rfl

/-! ### `clearConfigFault` -/

@[simp] theorem clearConfigFault_phase (s : State) : (clearConfigFault s).phase = s.phase := rfl
@[simp] theorem clearConfigFault_ticksInPhase (s : State) : (clearConfigFault s).ticksInPhase = s.ticksInPhase := rfl
@[simp] theorem clearConfigFault_ledOn (s : State) : (clearConfigFault s).ledOn = s.ledOn := rfl
@[simp] theorem clearConfigFault_rawbuf (s : State) : (clearConfigFault s).rawbuf = s.rawbuf := rfl
@[simp] theorem clearConfigFault_baseline (s : State) : (clearConfigFault s).baseline = s.baseline := rfl
@[simp] theorem clearConfigFault_measRaw (s : State) : (clearConfigFault s).measRaw = s.measRaw := rfl
@[simp] theorem clearConfigFault_measVoltage (s : State) : (clearConfigFault s).measVoltage = s.measVoltage := rfl
@[simp] theorem clearConfigFault_measDensity (s : State) : (clearConfigFault s).measDensity = s.measDensity := rfl
@[simp] theorem clearConfigFault_measSeq (s : State) : (clearConfigFault s).measSeq = s.measSeq := rfl
@[simp] theorem clearConfigFault_ready (s : State) : (clearConfigFault s).ready = s.ready := rfl
@[simp] theorem clearConfigFault_halted (s : State) : (clearConfigFault s).halted = false := rfl
@[simp] theorem clearConfigFault_cfgErr (s : State) : (clearConfigFault s).cfgErr = 0 := rfl
@[simp] theorem clearConfigFault_cfg (s : State) : (clearConfigFault s).cfg = s.cfg := rfl
@[simp] theorem clearConfigFault_adc (s : State) : (clearConfigFault s).adc = s.adc := rfl
@[simp] theorem clearConfigFault_lat (s : State) : (clearConfigFault s).lat = s.lat := rfl
@[simp] theorem clearConfigFault_out (s : State) : (clearConfigFault s).out = s.out := rfl
@[simp] theorem clearConfigFault_started (s : State) : (clearConfigFault s).started = s.started := rfl
@[simp] theorem clearConfigFault_pins (s : State) : (clearConfigFault s).pins = s.pins := rfl
@[simp] theorem clearConfigFault_program (s : State) : (clearConfigFault s).program = s.program := rfl

/-! ### `advanceCursor` -/

@[simp] theorem advanceCursor_phase (s : State) : (advanceCursor s).phase = (nextCursor s.cfg s.phase s.ticksInPhase).1 := rfl
@[simp] theorem advanceCursor_ticksInPhase (s : State) : (advanceCursor s).ticksInPhase = (nextCursor s.cfg s.phase s.ticksInPhase).2 := rfl
@[simp] theorem advanceCursor_ledOn (s : State) : (advanceCursor s).ledOn = s.ledOn := rfl
@[simp] theorem advanceCursor_rawbuf (s : State) : (advanceCursor s).rawbuf = s.rawbuf := rfl
@[simp] theorem advanceCursor_baseline (s : State) : (advanceCursor s).baseline = s.baseline := rfl
@[simp] theorem advanceCursor_measRaw (s : State) : (advanceCursor s).measRaw = s.measRaw := rfl
@[simp] theorem advanceCursor_measVoltage (s : State) : (advanceCursor s).measVoltage = s.measVoltage := rfl
@[simp] theorem advanceCursor_measDensity (s : State) : (advanceCursor s).measDensity = s.measDensity := rfl
@[simp] theorem advanceCursor_measSeq (s : State) : (advanceCursor s).measSeq = s.measSeq := rfl
@[simp] theorem advanceCursor_ready (s : State) : (advanceCursor s).ready = s.ready := rfl
@[simp] theorem advanceCursor_halted (s : State) : (advanceCursor s).halted = s.halted := rfl
@[simp] theorem advanceCursor_cfgErr (s : State) : (advanceCursor s).cfgErr = s.cfgErr := rfl
@[simp] theorem advanceCursor_cfg (s : State) : (advanceCursor s).cfg = s.cfg := rfl
@[simp] theorem advanceCursor_adc (s : State) : (advanceCursor s).adc = s.adc := rfl
@[simp] theorem advanceCursor_lat (s : State) : (advanceCursor s).lat = s.lat := rfl
@[simp] theorem advanceCursor_out (s : State) : (advanceCursor s).out = s.out := rfl
@[simp] theorem advanceCursor_started (s : State) : (advanceCursor s).started = s.started := rfl
@[simp] theorem advanceCursor_pins (s : State) : (advanceCursor s).pins = s.pins := rfl
@[simp] theorem advanceCursor_program (s : State) : (advanceCursor s).program = s.program := rfl

/-! ### `publish` -/

@[simp] theorem publish_phase (r : RawCode) (v : Volt) (d : Dens) (s : State) : (publish r v d s).phase = s.phase := rfl
@[simp] theorem publish_ticksInPhase (r : RawCode) (v : Volt) (d : Dens) (s : State) : (publish r v d s).ticksInPhase = s.ticksInPhase := rfl
@[simp] theorem publish_ledOn (r : RawCode) (v : Volt) (d : Dens) (s : State) : (publish r v d s).ledOn = s.ledOn := rfl
@[simp] theorem publish_rawbuf (r : RawCode) (v : Volt) (d : Dens) (s : State) : (publish r v d s).rawbuf = s.rawbuf := rfl
@[simp] theorem publish_baseline (r : RawCode) (v : Volt) (d : Dens) (s : State) : (publish r v d s).baseline = s.baseline := rfl
@[simp] theorem publish_measRaw (r : RawCode) (v : Volt) (d : Dens) (s : State) : (publish r v d s).measRaw = r := rfl
@[simp] theorem publish_measVoltage (r : RawCode) (v : Volt) (d : Dens) (s : State) : (publish r v d s).measVoltage = v := rfl
@[simp] theorem publish_measDensity (r : RawCode) (v : Volt) (d : Dens) (s : State) : (publish r v d s).measDensity = d := rfl
@[simp] theorem publish_measSeq (r : RawCode) (v : Volt) (d : Dens) (s : State) : (publish r v d s).measSeq = s.measSeq + 1 := rfl
@[simp] theorem publish_ready (r : RawCode) (v : Volt) (d : Dens) (s : State) : (publish r v d s).ready = true := rfl
@[simp] theorem publish_halted (r : RawCode) (v : Volt) (d : Dens) (s : State) : (publish r v d s).halted = s.halted := rfl
@[simp] theorem publish_cfgErr (r : RawCode) (v : Volt) (d : Dens) (s : State) : (publish r v d s).cfgErr = s.cfgErr := rfl
@[simp] theorem publish_cfg (r : RawCode) (v : Volt) (d : Dens) (s : State) : (publish r v d s).cfg = s.cfg := rfl
@[simp] theorem publish_adc (r : RawCode) (v : Volt) (d : Dens) (s : State) : (publish r v d s).adc = s.adc := rfl
@[simp] theorem publish_lat (r : RawCode) (v : Volt) (d : Dens) (s : State) : (publish r v d s).lat = s.lat := rfl
@[simp] theorem publish_out (r : RawCode) (v : Volt) (d : Dens) (s : State) : (publish r v d s).out = s.out := rfl
@[simp] theorem publish_started (r : RawCode) (v : Volt) (d : Dens) (s : State) : (publish r v d s).started = s.started := rfl
@[simp] theorem publish_pins (r : RawCode) (v : Volt) (d : Dens) (s : State) : (publish r v d s).pins = s.pins := rfl
@[simp] theorem publish_program (r : RawCode) (v : Volt) (d : Dens) (s : State) : (publish r v d s).program = s.program := rfl

/-! ### `fetched` -/

@[simp] theorem fetched_phase (s : State) : (fetched s).phase = s.phase := rfl
@[simp] theorem fetched_ticksInPhase (s : State) : (fetched s).ticksInPhase = s.ticksInPhase := rfl
@[simp] theorem fetched_ledOn (s : State) : (fetched s).ledOn = s.ledOn := rfl
@[simp] theorem fetched_rawbuf (s : State) : (fetched s).rawbuf = s.rawbuf := rfl
@[simp] theorem fetched_baseline (s : State) : (fetched s).baseline = s.baseline := rfl
@[simp] theorem fetched_measRaw (s : State) : (fetched s).measRaw = s.measRaw := rfl
@[simp] theorem fetched_measVoltage (s : State) : (fetched s).measVoltage = s.measVoltage := rfl
@[simp] theorem fetched_measDensity (s : State) : (fetched s).measDensity = s.measDensity := rfl
@[simp] theorem fetched_measSeq (s : State) : (fetched s).measSeq = s.measSeq := rfl
@[simp] theorem fetched_ready (s : State) : (fetched s).ready = s.ready := rfl
@[simp] theorem fetched_halted (s : State) : (fetched s).halted = s.halted := rfl
@[simp] theorem fetched_cfgErr (s : State) : (fetched s).cfgErr = s.cfgErr := rfl
@[simp] theorem fetched_cfg (s : State) : (fetched s).cfg = s.cfg := rfl
@[simp] theorem fetched_adc (s : State) : (fetched s).adc = s.adc := rfl
@[simp] theorem fetched_lat (s : State) : (fetched s).lat = s.lat := rfl
@[simp] theorem fetched_out (s : State) : (fetched s).out = s.out := rfl
@[simp] theorem fetched_started (s : State) : (fetched s).started = s.started := rfl
@[simp] theorem fetched_pins (s : State) : (fetched s).pins = (currentPresentation s).pins := rfl
@[simp] theorem fetched_program (s : State) : (fetched s).program = s.program.tail := rfl

end Sys2Proof.Machine
end

