-- ==== Sys2Proof/Laws/Ops.lean ====
section
/-! SUPPORT. What each shared operation can do, said once. -/

namespace Sys2Proof.Machine

theorem adcPollMax_pos : 0 < Config.adcPollMax := Nat.succ_pos _

theorem vscale_pos : (0 : ℚ) < Config.vscale := Nat.cast_pos.mpr (Nat.succ_pos _)

theorem dscale_pos : (0 : ℚ) < Config.dscale := Nat.cast_pos.mpr (Nat.succ_pos _)

@[simp] theorem andThen_next (s : State) (f : State → Result) : andThen (.next s) f = f s := rfl

@[simp] theorem andThen_fault (e : Fault) (f : State → Result) : andThen (.fault e) f = .fault e := rfl

@[simp] theorem andThen_refused (e : Refusal) (f : State → Result) : andThen (.refused e) f = .refused e := rfl

/-- What leads to a next state of `andThen` goes through a next state of its first part. -/
theorem andThen_eq_next {r : Result} {f : State → Result} {t : State} (h : andThen r f = .next t) :
    ∃ s, r = .next s ∧ f s = .next t := by
  cases r with
  | next s => exact ⟨s, rfl, h⟩
  | fault e => simp at h
  | refused e => simp at h

theorem unlessHalted_halted {s : State} (h : s.halted = true) (r : Result) : unlessHalted s r = .next s := by
  simp [unlessHalted, h]

theorem unlessHalted_running {s : State} (h : s.halted = false) (r : Result) : unlessHalted s r = r := by
  simp [unlessHalted, h]

/-- `ADC.READ` answers the port's result and records it, or has no step where the answer is above `ADC_MAX`. -/
theorem adcRead_next {s : State} (h : s.pins.adcResult.toNat ≤ s.cfg.adcMax.toNat) :
    adcRead s = .next { s with lat := { s.lat with readAnswer := s.pins.adcResult },
                               out := s.out ++ [.adcRead s.pins.adcResult] } := by
  simp only [adcRead, if_pos h]
  rfl

theorem adcRead_refused {s : State} (h : s.cfg.adcMax.toNat < s.pins.adcResult.toNat) :
    adcRead s = .refused (.adcResultAboveMax s.pins.adcResult) := by
  simp only [adcRead, if_neg (Nat.not_le.mpr h)]

theorem adcRead_cases {s t : State} (h : adcRead s = .next t) :
    s.pins.adcResult.toNat ≤ s.cfg.adcMax.toNat ∧
      t = { s with lat := { s.lat with readAnswer := s.pins.adcResult },
                   out := s.out ++ [.adcRead s.pins.adcResult] } := by
  by_cases hr : s.pins.adcResult.toNat ≤ s.cfg.adcMax.toNat
  · rw [adcRead_next hr] at h
    exact ⟨hr, (Host.Outcome.next.inj h).symm⟩
  · rw [adcRead_refused (by omega)] at h
    simp at h

/-- The cursor's move, by whether the tick is the last of its phase. -/
theorem nextCursor_eq (c : Cfg) (p : Phase) (t : Count) :
    nextCursor c p t = if t.toNat + 1 = (bound c p).toNat then (p.next, 0) else (p, t + 1) := by
  simp [nextCursor, isLastTick]

theorem lastTickOfPhase_eq (s : State) :
    lastTickOfPhase s = decide (s.ticksInPhase.toNat + 1 = (bound s.cfg s.phase).toNat) := by
  simp [lastTickOfPhase, isLastTick, beq_eq_decide]

/-- The registers and everything else after `RESET`'s writes, with what validation settles (R195). -/
theorem settleValidation_eq (cause : Cause) (s : State) :
    settleValidation cause s = { s with cfgErr := cause, halted := decide (cause ≠ 0) } := by
  unfold settleValidation
  split
  · rename_i h; subst h; simp [clearConfigFault]
  · rename_i h; simpa [raiseConfigFault] using h

end Sys2Proof.Machine
end

