-- ==== Sys2Proof/Laws/Acquisition.lean ====
section
/-! SUPPORT. What the busy-wait, the ADC sample and a tick can do, said once (40_acquisition R120 to R124). -/

namespace Sys2Proof.Machine

/-- The busy-wait touches the ADC's side, the ports, the poll latch and the trace, nothing else; and it adds at most
`n` events, all of them polls. -/
theorem pollUntilDone_frame (n : Nat) (s : State) :
    ∃ es p a l, pollUntilDone n s =
      { s with pins := { s.pins with adcDoneAfter := p }, adc := a, lat := { s.lat with pollAnswer := l },
               out := s.out ++ es } ∧
      (∀ e ∈ es, ∃ d, e = PortEvent.adcPoll d) ∧ es.length ≤ n := by
  induction n generalizing s with
  | zero => exact ⟨[], s.pins.adcDoneAfter, s.adc, s.lat.pollAnswer, by simp [pollUntilDone], by simp, by simp⟩
  | succ n ih =>
    by_cases hd : (adcPoll s).lat.pollAnswer = true
    · refine ⟨[.adcPoll s.pins.adcDone], s.pins.adcDoneAfter.map (· - 1), (adcPoll s).adc, s.pins.adcDone, ?_, by simp, by simp⟩
      rw [pollUntilDone, if_pos hd]
      rfl
    · obtain ⟨es, p, a, l, hk, hp, hl⟩ := ih (adcPoll s)
      rw [pollUntilDone, if_neg hd]
      refine ⟨.adcPoll s.pins.adcDone :: es, p, a, l, ?_, ?_, ?_⟩
      · rw [hk]
        simp [adcPoll, emit, Pins.afterPoll]
      · intro e he
        rcases List.mem_cons.mp he with rfl | he
        · exact ⟨_, rfl⟩
        · exact hp e he
      · simp only [List.length_cons]
        omega

/-- The busy-wait with an ADC that answers done after `k` other polls, within the bound (R123, outcome `Done`). -/
theorem pollUntilDone_done {n k : Nat} {s : State} (h : s.pins.adcDoneAfter = some k) (hk : k < n) :
    pollUntilDone n s =
      { s with pins := { s.pins with adcDoneAfter := some 0 },
               adc := { s.adc with converting := false },
               lat := { s.lat with pollAnswer := true },
               out := s.out ++ (List.replicate k (.adcPoll false) ++ [.adcPoll true]) } := by
  induction k generalizing s n with
  | zero =>
    obtain ⟨n, rfl⟩ : ∃ m, n = m + 1 := ⟨n - 1, by omega⟩
    have hd : s.pins.adcDone = true := by simp [Pins.adcDone, h]
    simp only [pollUntilDone, adcPoll_lat, hd, if_true]
    simp [adcPoll, emit, hd, Pins.afterPoll, h]
  | succ k ih =>
    obtain ⟨n, rfl⟩ : ∃ m, n = m + 1 := ⟨n - 1, by omega⟩
    have hd : s.pins.adcDone = false := by simp [Pins.adcDone, h]
    have h' : (adcPoll s).pins.adcDoneAfter = some k := by simp [Pins.afterPoll, h]
    simp only [pollUntilDone, adcPoll_lat, hd, Bool.false_eq_true, if_false]
    rw [ih h' (by omega)]
    simp [adcPoll, emit, hd, Pins.afterPoll, List.replicate_succ]

/-- The busy-wait with an ADC that does not answer done within the bound (R123, outcome `Timeout`). -/
theorem pollUntilDone_timeout {n : Nat} {s : State} (h : ∀ k, s.pins.adcDoneAfter = some k → n ≤ k) (hn : 0 < n) :
    pollUntilDone n s =
      { s with pins := { s.pins with adcDoneAfter := s.pins.adcDoneAfter.map (· - n) },
               lat := { s.lat with pollAnswer := false },
               out := s.out ++ List.replicate n (.adcPoll false) } := by
  induction n generalizing s with
  | zero => omega
  | succ n ih =>
    have hd : s.pins.adcDone = false := by
      rw [Pins.adcDone]
      cases hp : s.pins.adcDoneAfter with
      | none => rfl
      | some k => have := h k hp; cases k with
        | zero => omega
        | succ k => rfl
    have hs : pollUntilDone (n + 1) s = pollUntilDone n (adcPoll s) := by
      simp [pollUntilDone, hd]
    rw [hs]
    cases n with
    | zero => simp [pollUntilDone, adcPoll, emit, hd, Pins.afterPoll]
    | succ m =>
      rw [ih (s := adcPoll s) _ (by omega)]
      · have hsub : ∀ x : Nat, x - 1 - (m + 1) = x - (m + 1 + 1) := by omega
        simp [adcPoll, emit, hd, Pins.afterPoll, List.replicate_succ, Function.comp_def, hsub]
      · intro k hk
        simp only [adcPoll_pins, Pins.afterPoll, Option.map_eq_some_iff] at hk
        obtain ⟨j, hj, rfl⟩ := hk
        have := h j hj
        omega

/-- The ADC sample with outcome `Done` (R123). -/
theorem adcSample_done {s : State} {k : Nat} (h : s.pins.adcDoneAfter = some k) (hk : k < Config.adcPollMax)
    (hr : s.pins.adcResult.toNat ≤ s.cfg.adcMax.toNat) :
    adcSample s = .next
      { s with rawbuf := Memory.write s.rawbuf 0 s.pins.adcResult,
               pins := { s.pins with adcDoneAfter := some 0 },
               adc := { channel := s.cfg.adcCh, converting := false },
               lat := { s.lat with pollAnswer := true, readAnswer := s.pins.adcResult },
               out := s.out ++ ([.adcSel s.cfg.adcCh, .adcStart] ++ List.replicate k (.adcPoll false) ++
                 [.adcPoll true, .adcRead s.pins.adcResult]) } := by
  rw [adcSample, pollUntilDone_done (s := adcStart (adcSel s)) h hk]
  simp only [storeIfDone, if_true]
  rw [adcRead_next (by simpa using hr)]
  simp [wrraw, memWrite, wrrawOperand, adcStart, adcSel, emit]

/-- The ADC sample with outcome `Done` and an answer outside the contract (R129). -/
theorem adcSample_refused {s : State} {k : Nat} (h : s.pins.adcDoneAfter = some k) (hk : k < Config.adcPollMax)
    (hr : s.cfg.adcMax.toNat < s.pins.adcResult.toNat) :
    adcSample s = .refused (.adcResultAboveMax s.pins.adcResult) := by
  rw [adcSample, pollUntilDone_done (s := adcStart (adcSel s)) h hk]
  simp only [storeIfDone, if_true]
  rw [adcRead_refused (by simpa using hr)]
  rfl

/-- The ADC sample with outcome `Timeout` (R123). -/
theorem adcSample_timeout {s : State} (h : ∀ k, s.pins.adcDoneAfter = some k → Config.adcPollMax ≤ k) :
    adcSample s = .next
      { s with pins := { s.pins with adcDoneAfter := s.pins.adcDoneAfter.map (· - Config.adcPollMax) },
               adc := { channel := s.cfg.adcCh, converting := true },
               lat := { s.lat with pollAnswer := false },
               out := s.out ++ ([.adcSel s.cfg.adcCh, .adcStart] ++
                 List.replicate Config.adcPollMax (.adcPoll false)) } := by
  rw [adcSample, pollUntilDone_timeout (s := adcStart (adcSel s)) h adcPollMax_pos]
  simp [storeIfDone, adcStart, adcSel, emit]

/-- The ADC sample's outcomes, exhaustively. -/
theorem adcSample_cases (s : State) :
    (∃ k, s.pins.adcDoneAfter = some k ∧ k < Config.adcPollMax) ∨
      ∀ k, s.pins.adcDoneAfter = some k → Config.adcPollMax ≤ k := by
  by_cases h : ∃ k, s.pins.adcDoneAfter = some k ∧ k < Config.adcPollMax
  · exact .inl h
  · right
    intro k hk
    by_contra hlt
    exact h ⟨k, hk, by omega⟩

/-- What a sample can do to the registers: it may store one raw code within the contract, and nothing else. -/
theorem adcSample_frame {s t : State} (h : adcSample s = .next t) :
    ∃ es p a l, t = { s with rawbuf := t.rawbuf, pins := { s.pins with adcDoneAfter := p }, adc := a,
                             lat := { s.lat with pollAnswer := l, readAnswer := t.lat.readAnswer },
                             out := s.out ++ es } ∧
      ((t.rawbuf = s.rawbuf ∧ t.lat.readAnswer = s.lat.readAnswer) ∨
       (s.pins.adcResult.toNat ≤ s.cfg.adcMax.toNat ∧ t.lat.readAnswer = s.pins.adcResult ∧
        t.rawbuf = Memory.write s.rawbuf 0 s.pins.adcResult)) := by
  rcases adcSample_cases s with ⟨k, hk, hlt⟩ | hto
  · by_cases hr : s.pins.adcResult.toNat ≤ s.cfg.adcMax.toNat
    · rw [adcSample_done hk hlt hr] at h
      obtain rfl := Host.Outcome.next.inj h
      exact ⟨_, _, _, _, rfl, .inr ⟨hr, rfl, rfl⟩⟩
    · rw [adcSample_refused hk hlt (by omega)] at h
      simp at h
  · rw [adcSample_timeout hto] at h
    obtain rfl := Host.Outcome.next.inj h
    exact ⟨_, _, _, _, rfl, .inl ⟨rfl, rfl⟩⟩

/-- Moving the cursor, as a record (R120). -/
theorem advanceCursor_eq (s : State) :
    advanceCursor s =
      { s with
        phase := if s.ticksInPhase.toNat + 1 = (bound s.cfg s.phase).toNat then s.phase.next else s.phase
        ticksInPhase :=
          if s.ticksInPhase.toNat + 1 = (bound s.cfg s.phase).toNat then 0 else s.ticksInPhase + 1 } := by
  simp only [advanceCursor, setCursor, nextCursor_eq]
  by_cases h : s.ticksInPhase.toNat + 1 = (bound s.cfg s.phase).toNat <;> simp [h]

/-- The end of a tick of `LedOnSample`, as a record (R122). -/
theorem sampleTickEnd_eq {s : State} (hp : s.phase = .ledOnSample) :
    sampleTickEnd s =
      { s with
        ledOn := if s.ticksInPhase.toNat + 1 = s.cfg.sampleTicks.toNat then false else s.ledOn
        out := s.out ++ (if s.ticksInPhase.toNat + 1 = s.cfg.sampleTicks.toNat then [.ledClr] else [])
        phase := if s.ticksInPhase.toNat + 1 = s.cfg.sampleTicks.toNat then .ledOff else .ledOnSample
        ticksInPhase := if s.ticksInPhase.toNat + 1 = s.cfg.sampleTicks.toNat then 0 else s.ticksInPhase + 1 } := by
  rw [sampleTickEnd, lastTickOfPhase_eq, advanceCursor_eq, hp, bound]
  by_cases h : s.ticksInPhase.toNat + 1 = s.cfg.sampleTicks.toNat
  · simp [h, hp, bound, ledClr, emit, Phase.next]
  · simp [h, hp, bound]

/-- A running tick of `LedOnSettle`. -/
theorem execTick_settle {s : State} (hh : s.halted = false) (hp : s.phase = .ledOnSettle) :
    execTick s = .next (advanceCursor (ledSet s)) := by
  rw [execTick, unlessHalted_running hh, hp]

/-- A running tick of `LedOff`. -/
theorem execTick_off {s : State} (hh : s.halted = false) (hp : s.phase = .ledOff) :
    execTick s = .next (advanceCursor s) := by
  rw [execTick, unlessHalted_running hh, hp]

/-- A running sampling tick. -/
theorem execTick_sampling {s : State} (hh : s.halted = false) (hp : s.phase = .ledOnSample) (hc : s.ticksInPhase = 0) :
    execTick s = andThen (adcSample s) fun t => .next (sampleTickEnd t) := by
  rw [execTick, unlessHalted_running hh, hp]
  simp only [if_pos hc]

/-- A running later tick of `LedOnSample`. -/
theorem execTick_later {s : State} (hh : s.halted = false) (hp : s.phase = .ledOnSample) (hc : s.ticksInPhase ≠ 0) :
    execTick s = .next (sampleTickEnd s) := by
  rw [execTick, unlessHalted_running hh, hp]
  simp only [if_neg hc, andThen_next]

/-- What a tick can do (R120): nothing when halted; else by phase. -/
theorem execTick_cases {s t : State} (h : execTick s = .next t) :
    (s.halted = true ∧ t = s) ∨
    (s.halted = false ∧ s.phase = .ledOnSettle ∧ t = advanceCursor (ledSet s)) ∨
    (s.halted = false ∧ s.phase = .ledOnSample ∧ s.ticksInPhase = 0 ∧
      ∃ u, adcSample s = .next u ∧ t = sampleTickEnd u) ∨
    (s.halted = false ∧ s.phase = .ledOnSample ∧ s.ticksInPhase ≠ 0 ∧ t = sampleTickEnd s) ∨
    (s.halted = false ∧ s.phase = .ledOff ∧ t = advanceCursor s) := by
  cases hh : s.halted with
  | true =>
    rw [execTick, unlessHalted_halted hh] at h
    exact .inl ⟨rfl, (Host.Outcome.next.inj h).symm⟩
  | false =>
    rw [execTick, unlessHalted_running hh] at h
    cases hp : s.phase with
    | ledOnSettle =>
      rw [hp] at h
      exact .inr (.inl ⟨rfl, rfl, (Host.Outcome.next.inj h).symm⟩)
    | ledOnSample =>
      rw [hp] at h
      obtain ⟨u, hu, ht⟩ := andThen_eq_next h
      have ht := (Host.Outcome.next.inj ht).symm
      by_cases hc : s.ticksInPhase = 0
      · rw [if_pos hc] at hu
        exact .inr (.inr (.inl ⟨rfl, rfl, hc, u, hu, ht⟩))
      · rw [if_neg hc] at hu
        obtain rfl := Host.Outcome.next.inj hu
        exact .inr (.inr (.inr (.inl ⟨rfl, rfl, hc, ht⟩)))
    | ledOff =>
      rw [hp] at h
      exact .inr (.inr (.inr (.inr ⟨rfl, rfl, (Host.Outcome.next.inj h).symm⟩)))

end Sys2Proof.Machine
end

