-- ==== Sys2Proof/Laws/Conversion.lean ====
section
/-! SUPPORT. The converter's functions as exact arithmetic on numbers (42_conversion R160, R164, R168, R172). -/

namespace Sys2Proof.Machine

/-- In contract the quotient of `R2V` is at most `VCC_FX`, so it fits its register. -/
theorem quotient_le {raw vcc max : Nat} (h : raw ≤ max) : raw * vcc / max ≤ vcc := by
  rcases Nat.eq_zero_or_pos max with hm | hm
  · subst hm; simp
  · calc raw * vcc / max ≤ max * vcc / max := Nat.div_le_div_right (Nat.mul_le_mul_right _ h)
      _ = vcc := Nat.mul_div_cancel_left _ hm

/-- `R2V` in contract. -/
theorem r2v_toNat {c : Cfg} {raw : RawCode} (h : raw.toNat ≤ c.adcMax.toNat) (hm : 1 ≤ c.adcMax.toNat) :
    (r2v c raw).toNat = raw.toNat * c.vccFx.toNat / c.adcMax.toNat := by
  rw [r2v, if_pos ⟨h, hm⟩, BitVec.toNat_ofNat]
  exact Nat.mod_eq_of_lt (lt_of_le_of_lt (quotient_le h) c.vccFx.isLt)

/-- `UPDB` as a minimum. -/
theorem updatedBaseline_toNat (b v : Volt) : (updatedBaseline b v).toNat = min b.toNat v.toNat := by
  unfold updatedBaseline
  split <;> omega

/-- The product of `V2D` fits 64 bits. -/
theorem v2d_toNat (b : Volt) (slope : Slope) (v : Volt) :
    (v2d b slope v).toNat = (v.toNat - b.toNat) * slope.toNat := by
  rw [v2d, BitVec.toNat_ofNat]
  refine Nat.mod_eq_of_lt ?_
  have h1 : v.toNat - b.toNat < 2 ^ 32 := lt_of_le_of_lt (Nat.sub_le _ _) v.isLt
  have h2 : slope.toNat < 2 ^ 32 := slope.isLt
  calc (v.toNat - b.toNat) * slope.toNat < 2 ^ 32 * 2 ^ 32 := Nat.mul_lt_mul'' h1 h2
    _ = 2 ^ 64 := by norm_num

end Sys2Proof.Machine
end

