-- ==== Sys2Proof/Laws/Memory.lean ====
section
/-! SUPPORT. The raw-sample buffer: a read sees the last write to its element, a write touches one element, and the
canonical form is kept (20_memory R60, R62). -/

namespace Sys2Proof.Machine

@[simp] theorem Memory.read_nil (a : Nat) : Memory.read [] a = 0 := rfl

theorem Memory.read_cons (b : Nat) (w : RawCode) (m : Memory) (a : Nat) :
    Memory.read ((b, w) :: m) a = if b = a then w else Memory.read m a := rfl

/-- A canonical buffer from address `lo` up lists nothing below `lo`. -/
theorem Memory.read_below {lo a : Nat} {m : Memory} (h : Memory.wfFrom lo m = true) (ha : a < lo) :
    Memory.read m a = 0 := by
  induction m generalizing lo with
  | nil => rfl
  | cons c m ih =>
    obtain ⟨b, w⟩ := c
    simp only [Memory.wfFrom, Bool.and_eq_true, decide_eq_true_eq] at h
    rw [Memory.read_cons, if_neg (by omega), ih h.2 (by omega)]

theorem Memory.wfFrom_mono {lo lo' : Nat} {m : Memory} (h : Memory.wfFrom lo m = true) (hl : lo' ≤ lo) :
    Memory.wfFrom lo' m = true := by
  cases m with
  | nil => rfl
  | cons c m =>
    obtain ⟨b, w⟩ := c
    simp only [Memory.wfFrom, Bool.and_eq_true, decide_eq_true_eq] at h ⊢
    exact ⟨⟨⟨by omega, h.1.1.2⟩, h.1.2⟩, h.2⟩

/-- What `Memory.cons` reads as, where the rest lists nothing at the new address. -/
theorem Memory.read_cons' {a x : Nat} {v : RawCode} {m : Memory} (h : Memory.read m a = 0) :
    Memory.read (Memory.cons a v m) x = if x = a then v else Memory.read m x := by
  unfold Memory.cons Memory.unlisted
  split
  · split <;> simp_all
  · rw [Memory.read_cons]; simp only [eq_comm]

theorem Memory.cons_wf {lo a : Nat} {v : RawCode} {m : Memory} (hm : Memory.wfFrom (a + 1) m = true) (hl : lo ≤ a)
    (ha : a < Config.ringDepth) : Memory.wfFrom lo (Memory.cons a v m) = true := by
  unfold Memory.cons
  split
  · exact Memory.wfFrom_mono hm (by omega)
  · rename_i hv
    simp [Memory.wfFrom, hl, ha, hv, hm]

/-- One write: its element reads as written, every other address as before, and the form is kept. -/
theorem Memory.write_spec {lo a : Nat} {v : RawCode} {m : Memory} (hm : Memory.wfFrom lo m = true) (hl : lo ≤ a)
    (ha : a < Config.ringDepth) :
    Memory.wfFrom lo (Memory.write m a v) = true ∧
      ∀ x, Memory.read (Memory.write m a v) x = if x = a then v else Memory.read m x := by
  induction m generalizing lo with
  | nil => exact ⟨Memory.cons_wf rfl hl ha, fun x => Memory.read_cons' rfl⟩
  | cons c m ih =>
    obtain ⟨b, w⟩ := c
    have h := hm
    simp only [Memory.wfFrom, Bool.and_eq_true, decide_eq_true_eq] at h
    unfold Memory.write
    split
    · rename_i hab
      have hm' : Memory.wfFrom (a + 1) ((b, w) :: m) = true := by
        simp only [Memory.wfFrom, Bool.and_eq_true, decide_eq_true_eq]
        exact ⟨⟨⟨by omega, h.1.1.2⟩, h.1.2⟩, h.2⟩
      exact ⟨Memory.cons_wf hm' hl ha, fun x => Memory.read_cons' (Memory.read_below hm' (by omega))⟩
    · split
      · rename_i hab
        subst hab
        refine ⟨Memory.cons_wf h.2 hl ha, fun x => ?_⟩
        rw [Memory.read_cons' (Memory.read_below h.2 (by omega)), Memory.read_cons]
        split <;> rename_i hx
        · rfl
        · rw [if_neg (fun e => hx e.symm)]
      · rename_i h1 h2
        obtain ⟨hw, hr⟩ := ih (lo := b + 1) h.2 (by omega)
        refine ⟨?_, fun x => ?_⟩
        · simp only [Memory.wfFrom, Bool.and_eq_true, decide_eq_true_eq]
          exact ⟨⟨h.1.1, h.1.2⟩, hw⟩
        · rw [Memory.read_cons, Memory.read_cons, hr]
          by_cases hbx : b = x
          · subst hbx; simp [Ne.symm h2]
          · simp [hbx]

/-- A read right after a write of the same element, in any buffer. -/
theorem Memory.read_write_same (m : Memory) (v : RawCode) : Memory.read (Memory.write m 0 v) 0 = v ∨
    Memory.wf m = false := by
  by_cases h : Memory.wf m = true
  · left
    have := (Memory.write_spec (v := v) h (Nat.le_refl 0) (by decide)).2 0
    simpa using this
  · right; simpa using h

/-- `MemWrite(0, 1, v)` keeps the canonical form, its element reads as `v`, every other address as before. -/
theorem Memory.write_zero {m : Memory} (h : Memory.wf m = true) (v : RawCode) :
    Memory.wf (Memory.write m 0 v) = true ∧ ∀ x, Memory.read (Memory.write m 0 v) x = if x = 0 then v else Memory.read m x :=
  Memory.write_spec h (Nat.le_refl 0) (by decide)

/-- A canonical buffer of depth one is determined by its element. -/
theorem Memory.wf_ext {m m' : Memory} (h : Memory.wf m = true) (h' : Memory.wf m' = true)
    (hr : Memory.read m 0 = Memory.read m' 0) : m = m' := by
  have key : ∀ {m : Memory}, Memory.wf m = true → m = if Memory.read m 0 = 0 then [] else [(0, Memory.read m 0)] := by
    intro m hm
    cases m with
    | nil => rfl
    | cons c m =>
      obtain ⟨b, w⟩ := c
      simp only [Memory.wf, Memory.wfFrom, Bool.and_eq_true, decide_eq_true_eq] at hm
      obtain ⟨⟨⟨_, hb⟩, hw⟩, hm⟩ := hm
      have hb0 : b = 0 := Nat.lt_one_iff.mp hb
      subst hb0
      cases m with
      | nil =>
        have hw : w ≠ 0 := hw
        rw [Memory.read_cons, if_pos rfl, if_neg hw]
      | cons c m =>
        obtain ⟨b', w'⟩ := c
        simp only [Memory.wfFrom, Bool.and_eq_true, decide_eq_true_eq] at hm
        have h1 : b' < 1 := hm.1.1.2
        omega
  rw [key h, key h', hr]

/-- Reading `raw_sample` after `MemWrite`. -/
theorem memRead_memWrite {s : State} (h : Memory.wf s.rawbuf = true) (v : RawCode) : memRead (memWrite v s) = v := by
  have := (Memory.write_zero h v).2 0
  simpa [memRead] using this

end Sys2Proof.Machine
end

