-- ==== Sys2Proof/Laws/PerInstr.lean ====
section
/-! SUPPORT. The class of each operation against its word (30_encoding R100, R103 to R105). -/

namespace Sys2Proof.Laws.OpClass

/-- An `OP4` word's class bit says whether the operation is external (R100), and so whether the `op` input or a sequencer
may present it (R103); the words of the two port formats stand for port commands, which only a sequencer issues. -/
def Statement (i : Instr) : Prop :=
  match encode i with
  | .op4 w =>
    i.isPortCommand = false ∧ i.isExternal = !w.getLsbD 3 ∧ i.wellFormedVia .opInput = !w.getLsbD 3 ∧
      i.wellFormedVia .sequencer = w.getLsbD 3
  | .adc2 _ | .led1 _ => i.isPortCommand = true ∧ i.wellFormedVia .opInput = false ∧ i.wellFormedVia .sequencer = true
  | .other _ _ => False

theorem idle : Statement .idle := ⟨rfl, rfl, rfl, rfl⟩
theorem tick : Statement .tick := ⟨rfl, rfl, rfl, rfl⟩
theorem meas : Statement .meas := ⟨rfl, rfl, rfl, rfl⟩
theorem rdraw : Statement .rdraw := ⟨rfl, rfl, rfl, rfl⟩
theorem take : Statement .take := ⟨rfl, rfl, rfl, rfl⟩
theorem reset : Statement .reset := ⟨rfl, rfl, rfl, rfl⟩
theorem r2v : Statement .r2v := ⟨rfl, rfl, rfl, rfl⟩
theorem updb : Statement .updb := ⟨rfl, rfl, rfl, rfl⟩
theorem v2d : Statement .v2d := ⟨rfl, rfl, rfl, rfl⟩
theorem wrraw : Statement .wrraw := ⟨rfl, rfl, rfl, rfl⟩
theorem adcSel : Statement .adcSel := ⟨rfl, rfl, rfl⟩
theorem adcStart : Statement .adcStart := ⟨rfl, rfl, rfl⟩
theorem adcPoll : Statement .adcPoll := ⟨rfl, rfl, rfl⟩
theorem adcRead : Statement .adcRead := ⟨rfl, rfl, rfl⟩
theorem ledClr : Statement .ledClr := ⟨rfl, rfl, rfl⟩
theorem ledSet : Statement .ledSet := ⟨rfl, rfl, rfl⟩

end Sys2Proof.Laws.OpClass
end

