-- ==== Sys2Proof/Laws/Records.lean ====
section
/-! SUPPORT. The data records as numbers (30_encoding R96, R97): each field at its place, least significant first. -/

namespace Sys2Proof.Machine

/-- Concatenation as arithmetic: `y` in the low bits (R9). -/
theorem toNat_concat {n m : Nat} (x : BitVec n) (y : BitVec m) : (x ++ y).toNat = x.toNat * 2 ^ m + y.toNat := by
  rw [BitVec.toNat_append, ← Nat.shiftLeft_add_eq_or_of_lt y.isLt, Nat.shiftLeft_eq]

theorem toNat_ofBool_lt (b : Bool) : b.toNat < 2 := by cases b <;> decide

/-- `MEAS145` as a number. -/
theorem packMeas_concat (valid : Bool) (seq : SeqNo) (density : Dens) (voltage : Volt) (raw : RawCode) :
    (packMeas valid seq density voltage raw).toNat =
      (((valid.toNat * 2 ^ 32 + seq.toNat) * 2 ^ 64 + density.toNat) * 2 ^ 32 + voltage.toNat) * 2 ^ 16 + raw.toNat := by
  have h1 := toNat_concat (BitVec.ofBool valid ++ seq ++ density ++ voltage) raw
  have h2 := toNat_concat (BitVec.ofBool valid ++ seq ++ density) voltage
  have h3 := toNat_concat (BitVec.ofBool valid ++ seq) density
  have h4 := toNat_concat (BitVec.ofBool valid) seq
  rw [BitVec.toNat_ofBool] at h4
  rw [h2, h3, h4] at h1
  exact h1

/-- `CFG209` as a number. -/
theorem packCfg_concat (c : Cfg) :
    (packCfg c).toNat =
      (((((((((c.base0Fx.toNat * 2 ^ 32 + c.slopeFx.toNat) * 2 ^ 16 + c.offTicks.toNat) * 2 ^ 16 + c.sampleTicks.toNat) *
        2 ^ 16 + c.settleTicks.toNat) * 2 ^ 32 + c.tickNs.toNat) * 2 ^ 16 + c.adcMax.toNat) * 2 ^ 32 + c.vccFx.toNat) *
        2 ^ 8 + c.adcCh.toNat) * 2 + c.ledActiveHigh.toNat) * 2 ^ 8 + c.ledId.toNat := by
  have h1 := toNat_concat c.base0Fx c.slopeFx
  have h2 := toNat_concat (c.base0Fx ++ c.slopeFx) c.offTicks
  have h3 := toNat_concat (c.base0Fx ++ c.slopeFx ++ c.offTicks) c.sampleTicks
  have h4 := toNat_concat (c.base0Fx ++ c.slopeFx ++ c.offTicks ++ c.sampleTicks) c.settleTicks
  have h5 := toNat_concat (c.base0Fx ++ c.slopeFx ++ c.offTicks ++ c.sampleTicks ++ c.settleTicks) c.tickNs
  have h6 := toNat_concat (c.base0Fx ++ c.slopeFx ++ c.offTicks ++ c.sampleTicks ++ c.settleTicks ++ c.tickNs) c.adcMax
  have h7 := toNat_concat
    (c.base0Fx ++ c.slopeFx ++ c.offTicks ++ c.sampleTicks ++ c.settleTicks ++ c.tickNs ++ c.adcMax) c.vccFx
  have h8 := toNat_concat
    (c.base0Fx ++ c.slopeFx ++ c.offTicks ++ c.sampleTicks ++ c.settleTicks ++ c.tickNs ++ c.adcMax ++ c.vccFx) c.adcCh
  have h9 := toNat_concat
    (c.base0Fx ++ c.slopeFx ++ c.offTicks ++ c.sampleTicks ++ c.settleTicks ++ c.tickNs ++ c.adcMax ++ c.vccFx ++ c.adcCh)
    (BitVec.ofBool c.ledActiveHigh)
  have h10 := toNat_concat
    (c.base0Fx ++ c.slopeFx ++ c.offTicks ++ c.sampleTicks ++ c.settleTicks ++ c.tickNs ++ c.adcMax ++ c.vccFx ++ c.adcCh ++
      BitVec.ofBool c.ledActiveHigh) c.ledId
  rw [BitVec.toNat_ofBool] at h9
  rw [h9, h8, h7, h6, h5, h4, h3, h2, h1] at h10
  exact h10

/-- A one-bit field read as a number's bit. -/
theorem getLsbD_eq_mod {n : Nat} (w : BitVec n) (i : Nat) : w.getLsbD i = decide (w.toNat / 2 ^ i % 2 = 1) := by
  rw [← BitVec.testBit_toNat, Nat.testBit_eq_decide_div_mod_eq]

end Sys2Proof.Machine
end

