-- ==== Sys2Proof/Laws/Run.lean ====
section
/-! SUPPORT. Runs: the schedule is read by `step` alone, so an operation does the same under any schedule; and what one step
of an environment is. -/

namespace Sys2Proof.Machine

@[simp] theorem withProgram_phase (q : List Presentation) (s : State) : (s.withProgram q).phase = s.phase := rfl
@[simp] theorem withProgram_ticksInPhase (q : List Presentation) (s : State) : (s.withProgram q).ticksInPhase = s.ticksInPhase := rfl
@[simp] theorem withProgram_ledOn (q : List Presentation) (s : State) : (s.withProgram q).ledOn = s.ledOn := rfl
@[simp] theorem withProgram_rawbuf (q : List Presentation) (s : State) : (s.withProgram q).rawbuf = s.rawbuf := rfl
@[simp] theorem withProgram_baseline (q : List Presentation) (s : State) : (s.withProgram q).baseline = s.baseline := rfl
@[simp] theorem withProgram_measRaw (q : List Presentation) (s : State) : (s.withProgram q).measRaw = s.measRaw := rfl
@[simp] theorem withProgram_measVoltage (q : List Presentation) (s : State) : (s.withProgram q).measVoltage = s.measVoltage := rfl
@[simp] theorem withProgram_measDensity (q : List Presentation) (s : State) : (s.withProgram q).measDensity = s.measDensity := rfl
@[simp] theorem withProgram_measSeq (q : List Presentation) (s : State) : (s.withProgram q).measSeq = s.measSeq := rfl
@[simp] theorem withProgram_ready (q : List Presentation) (s : State) : (s.withProgram q).ready = s.ready := rfl
@[simp] theorem withProgram_halted (q : List Presentation) (s : State) : (s.withProgram q).halted = s.halted := rfl
@[simp] theorem withProgram_cfgErr (q : List Presentation) (s : State) : (s.withProgram q).cfgErr = s.cfgErr := rfl
@[simp] theorem withProgram_cfg (q : List Presentation) (s : State) : (s.withProgram q).cfg = s.cfg := rfl
@[simp] theorem withProgram_adc (q : List Presentation) (s : State) : (s.withProgram q).adc = s.adc := rfl
@[simp] theorem withProgram_lat (q : List Presentation) (s : State) : (s.withProgram q).lat = s.lat := rfl
@[simp] theorem withProgram_out (q : List Presentation) (s : State) : (s.withProgram q).out = s.out := rfl
@[simp] theorem withProgram_started (q : List Presentation) (s : State) : (s.withProgram q).started = s.started := rfl
@[simp] theorem withProgram_pins (q : List Presentation) (s : State) : (s.withProgram q).pins = s.pins := rfl
@[simp] theorem withProgram_program (q : List Presentation) (s : State) : (s.withProgram q).program = q := rfl

@[simp] theorem withProgram_memRead (q : List Presentation) (s : State) : memRead (s.withProgram q) = memRead s := rfl

@[simp] theorem withProgram_self (s : State) : s.withProgram s.program = s := rfl

@[simp] theorem withProgram_withProgram (q q' : List Presentation) (s : State) :
    (s.withProgram q').withProgram q = s.withProgram q := rfl

/-- A result under another schedule. -/
def withSchedule (q : List Presentation) (r : Result) : Result := andThen r fun t => .next (t.withProgram q)

@[simp] theorem withSchedule_next (q : List Presentation) (t : State) :
    withSchedule q (.next t) = .next (t.withProgram q) := rfl

/-- What `step` does with a presentation that it accepts, or refuses. -/
theorem stepUnder_eq (p : Presentation) (s : State) :
    stepUnder p s =
      match accept s.started p with
      | .ok i => exec i { s with pins := p.pins }
      | .error e => .refused e := rfl

theorem unlessHalted_schedule {s : State} {r r' : Result} (q : List Presentation) (h : r' = withSchedule q r) :
    unlessHalted (s.withProgram q) r' = withSchedule q (unlessHalted s r) := by
  cases hh : s.halted with
  | true => rw [unlessHalted_halted (by exact hh), unlessHalted_halted hh]; rfl
  | false => rw [unlessHalted_running (by exact hh), unlessHalted_running hh, h]

theorem pollUntilDone_schedule (q : List Presentation) (n : Nat) (s : State) :
    pollUntilDone n (s.withProgram q) = (pollUntilDone n s).withProgram q := by
  induction n generalizing s with
  | zero => rfl
  | succ n ih =>
    have h : adcPoll (s.withProgram q) = (adcPoll s).withProgram q := rfl
    rw [pollUntilDone, pollUntilDone, h, ih, withProgram_lat]
    split <;> rfl

theorem adcRead_schedule (q : List Presentation) (s : State) :
    adcRead (s.withProgram q) = withSchedule q (adcRead s) := by
  by_cases hr : s.pins.adcResult.toNat ≤ s.cfg.adcMax.toNat
  · rw [adcRead_next hr, adcRead_next (by exact hr)]; rfl
  · have hr := Nat.lt_of_not_le hr
    rw [adcRead_refused hr, adcRead_refused (by exact hr)]; rfl

theorem storeIfDone_schedule (q : List Presentation) (s : State) :
    storeIfDone (s.withProgram q) = withSchedule q (storeIfDone s) := by
  rw [storeIfDone, storeIfDone, withProgram_lat, adcRead_schedule]
  split
  · cases adcRead s <;> rfl
  · rfl

theorem adcSample_schedule (q : List Presentation) (s : State) :
    adcSample (s.withProgram q) = withSchedule q (adcSample s) := by
  have h : adcStart (adcSel (s.withProgram q)) = (adcStart (adcSel s)).withProgram q := rfl
  rw [adcSample, h, pollUntilDone_schedule, storeIfDone_schedule, adcSample]

theorem sampleTickEnd_schedule (q : List Presentation) (s : State) :
    sampleTickEnd (s.withProgram q) = (sampleTickEnd s).withProgram q := by
  have h : lastTickOfPhase (s.withProgram q) = lastTickOfPhase s := rfl
  rw [sampleTickEnd, sampleTickEnd, h]
  split <;> rfl

theorem execTick_schedule (q : List Presentation) (s : State) :
    execTick (s.withProgram q) = withSchedule q (execTick s) := by
  refine unlessHalted_schedule q ?_
  rw [withProgram_phase, withProgram_ticksInPhase, adcSample_schedule]
  cases s.phase with
  | ledOnSettle => rfl
  | ledOff => rfl
  | ledOnSample =>
    by_cases hc : s.ticksInPhase = 0
    · simp only [hc, if_true]
      cases adcSample s with
      | next u => exact congrArg Host.Outcome.next (sampleTickEnd_schedule q u)
      | fault e => rfl
      | refused e => rfl
    · simp only [hc, if_false]
      exact congrArg Host.Outcome.next (sampleTickEnd_schedule q s)

/-- No operation reads or writes the schedule. -/
theorem exec_schedule (q : List Presentation) (i : Instr) (s : State) :
    exec i (s.withProgram q) = withSchedule q (exec i s) := by
  cases i with
  | tick => exact execTick_schedule q s
  | adcRead => exact unlessHalted_schedule q (adcRead_schedule q s)
  | reset =>
    show Host.Outcome.next (settleValidation _ _) = Host.Outcome.next _
    rw [settleValidation_eq, settleValidation_eq]
    rfl
  | idle | rdraw | take => rfl
  | meas | r2v | updb | v2d | wrraw | adcSel | adcStart | adcPoll | ledClr | ledSet => exact unlessHalted_schedule q rfl

end Sys2Proof.Machine
end

