-- ==== Sys2Proof/Laws/Step.lean ====
section
/-! SUPPORT. What leads to a next state: of a guarded meaning, of `accept`, of `step`. -/

namespace Sys2Proof.Machine

/-- A guarded meaning answers the state itself when halted, else what it guards answers (R28). -/
theorem unlessHalted_eq_next {s t : State} {r : Result} (h : unlessHalted s r = .next t) :
    (s.halted = true ∧ t = s) ∨ (s.halted = false ∧ r = .next t) := by
  cases hh : s.halted with
  | true =>
    rw [unlessHalted_halted hh] at h
    exact .inl ⟨rfl, (Host.Outcome.next.inj h).symm⟩
  | false =>
    rw [unlessHalted_running hh] at h
    exact .inr ⟨rfl, h⟩

/-- A presentation is accepted exactly when its word decodes, its presenter may present it, and a run has started or it
is a `RESET` (R42, R102, R103). -/
theorem accept_eq_ok {b : Bool} {p : Presentation} {i : Instr} :
    accept b p = .ok i ↔ decode p.word = .ok i ∧ i.wellFormedVia p.via = true ∧ (b = true ∨ i = .reset) := by
  unfold accept
  cases decode p.word with
  | error e => simp
  | ok j =>
    by_cases hv : j.wellFormedVia p.via = false
    · simp only [if_pos hv, reduceCtorEq, Except.ok.injEq, false_iff]
      rintro ⟨rfl, hv', _⟩
      rw [hv] at hv'
      cases hv'
    · by_cases hs : b = false ∧ j ≠ .reset
      · simp only [if_neg hv, if_pos hs, reduceCtorEq, Except.ok.injEq, false_iff]
        rintro ⟨rfl, _, h⟩
        rcases h with h | h
        · rw [hs.1] at h; cases h
        · exact hs.2 h
      · simp only [if_neg hv, if_neg hs, Except.ok.injEq]
        constructor
        · rintro rfl
          refine ⟨rfl, by simpa using hv, ?_⟩
          cases b
          · exact .inr (by simpa using hs)
          · exact .inl rfl
        · exact fun h => h.1

/-- Every next state of a step is that of an accepted operation, executed with its inputs on the ports. -/
theorem step_eq_next {s t : State} (h : step s = .next t) :
    ∃ i, accept s.started (currentPresentation s) = .ok i ∧ exec i (fetched s) = .next t := by
  rw [step] at h
  cases ha : accept s.started (currentPresentation s) with
  | error e => rw [ha] at h; simp at h
  | ok i => rw [ha] at h; exact ⟨i, rfl, h⟩

end Sys2Proof.Machine
end

