-- ==== Sys2Proof/Tests/Slice0.lean ====
section
/-! SUPPORT. Tests with values from 95_test_vectors (T, B, U, V, M, K, X and section 7 are its row names), the smoke of the
well-formedness checks, and for every statement with hypotheses a concrete case that meets them. -/

namespace Sys2Proof.Tests

open Sys2Proof.Machine

/-! ### Small states -/

/-- `CFG_S` of 95_test_vectors section 0. -/
def cfgS : Cfg := { Cfg.scenario with tickNs := 2000000, settleTicks := 2, sampleTicks := 1, offTicks := 2 }

/-- The input ports with an ADC that answers done at the first poll, with result `r`. -/
def doneWith (r : RawCode) : Pins := { State.reset.pins with adcDoneAfter := some 0, adcResult := r }

/-- A running block at a cursor. -/
def stateAt (c : Cfg) (p : Phase) (t : Count) (raw : RawCode) (pins : Pins) : State :=
  { State.reset with
    cfg := c, phase := p, ticksInPhase := t, ledOn := ledExpected p t, rawbuf := Memory.write [] 0 raw, pins := pins }

/-- A running block that holds a raw sample. -/
def withRaw (raw : RawCode) : State := stateAt .scenario .ledOnSettle 0 raw State.reset.pins

/-- A running block with operand latches. -/
def withLatches (l : Latches) : State := { State.reset with lat := l }

/-- A block halted by `slope = 0` (X8). -/
def haltedState : State :=
  { State.reset with cfg := { Cfg.scenario with slopeFx := 0 }, cfgErr := 0b10000, halted := true }

/-- A block before its first `RESET` (R42), holding anything. -/
def freshState : State := { State.reset with started := false, measSeq := 7, ready := true }

/-- An operation on the `op` input with the ports `pins`. -/
def present (i : Instr) (pins : Pins) : Presentation := { via := .opInput, word := encode i, pins := pins }

/-- A state whose environment presents these. -/
def State.presenting (s : State) (ps : List Presentation) : State := { s with program := ps }

/-- What a result's next state shows. -/
def shows (r : Result) (f : State → α) : Option α :=
  match r with
  | .next t => some (f t)
  | .fault _ => none
  | .refused _ => none

/-! ### Decoding: words written out from R101, R104, R105 -/

theorem test_decode_idle : decode (.op4 0b0000) = .ok .idle := by decide
theorem test_decode_tick : decode (.op4 0b0001) = .ok .tick := by decide
theorem test_decode_meas : decode (.op4 0b0010) = .ok .meas := by decide
theorem test_decode_rdraw : decode (.op4 0b0011) = .ok .rdraw := by decide
theorem test_decode_take : decode (.op4 0b0100) = .ok .take := by decide
theorem test_decode_reset : decode (.op4 0b0111) = .ok .reset := by decide
theorem test_decode_r2v : decode (.op4 0b1000) = .ok .r2v := by decide
theorem test_decode_updb : decode (.op4 0b1001) = .ok .updb := by decide
theorem test_decode_v2d : decode (.op4 0b1010) = .ok .v2d := by decide
theorem test_decode_wrraw : decode (.op4 0b1011) = .ok .wrraw := by decide
theorem test_decode_adcSel : decode (.adc2 0b00) = .ok .adcSel := by decide
theorem test_decode_adcStart : decode (.adc2 0b01) = .ok .adcStart := by decide
theorem test_decode_adcPoll : decode (.adc2 0b10) = .ok .adcPoll := by decide
theorem test_decode_adcRead : decode (.adc2 0b11) = .ok .adcRead := by decide
theorem test_decode_ledClr : decode (.led1 0b0) = .ok .ledClr := by decide
theorem test_decode_ledSet : decode (.led1 0b1) = .ok .ledSet := by decide

/-- Reserved codes, section 7. -/
theorem test_decode_reserved : decode (.op4 0x5) = .error (.reservedCode 0x5) ∧
    decode (.op4 0x6) = .error (.reservedCode 0x6) ∧ decode (.op4 0xC) = .error (.reservedCode 0xC) ∧
    decode (.op4 0xF) = .error (.reservedCode 0xF) := by decide

/-- Words numbered as the opcode table numbers them. -/
theorem test_decode_table : decodeTableWord 4 0x7 = some .reset ∧ decodeTableWord 8 0x9 = some .updb ∧
    decodeTableWord 2 0x2 = some .adcPoll ∧ decodeTableWord 1 0x1 = some .ledSet ∧ decodeTableWord 8 0x6 = none ∧
    decodeTableWord 8 0x10 = none := by decide

/-- `CFG209`, second row of section 7: led_id 13, led_high 0, ch 3, slope 200. -/
theorem test_unpackCfg : unpackCfg 0x124F800000019004BA0004002400007D0007FE00989680060D#209 =
    { Cfg.scenario with ledId := 13, ledActiveHigh := false, adcCh := 3, slopeFx := 200 } := by decide

/-- `CFG_A` packed, section 0. -/
theorem test_packCfg : packCfg .scenario = 0x124F800000015404BA0004002400007D0007FE009896800100#209 := by decide

/-! ### Well-formedness smoke: each check refuses a term -/

theorem smoke_internal_on_op : Instr.r2v.wellFormedVia .opInput = false := by decide
theorem smoke_port_command_on_op : Instr.adcStart.wellFormedVia .opInput = false := by decide
theorem smoke_external_from_sequencer : Instr.tick.wellFormedVia .sequencer = false := by decide
theorem smoke_run_without_reset : wellFormedRun [.tick, .reset] = false := by decide
theorem smoke_run_with_internal : wellFormedRun [.reset, .wrraw] = false := by decide
theorem smoke_run_accepted : wellFormedRun [.reset, .tick, .meas, .take] = true := by decide

/-! ### One step of each operation -/

/-- T2: the settle phase ends. -/
theorem test_tick_settle_end :
    shows (exec .tick (stateAt .scenario .ledOnSettle 17 0 (doneWith 0)))
      (fun t => (t.phase, t.ticksInPhase, t.ledOn, t.out)) = some (.ledOnSample, 0, true, [.ledSet]) := by decide

/-- T9: the one tick of a sample phase of one tick does both its works. -/
theorem test_tick_sampling :
    shows (exec .tick (stateAt cfgS .ledOnSample 0 0 (doneWith 204)))
      (fun t => (t.phase, t.ticksInPhase, t.ledOn, memRead t, t.out)) =
        some (.ledOff, 0, false, 204, [.adcSel 0, .adcStart, .adcPoll true, .adcRead 204, .ledClr]) := by decide

/-- T5 and T6's busy-wait, `ADC_POLL_MAX = 3`: done at the third poll, or never. -/
theorem test_poll_loop :
    (pollUntilDone 3 { State.reset with pins := { State.reset.pins with adcDoneAfter := some 2 } }).out =
      [.adcPoll false, .adcPoll false, .adcPoll true] ∧
    (pollUntilDone 3 State.reset).out = [.adcPoll false, .adcPoll false, .adcPoll false] := by decide

/-- M1. -/
theorem test_meas_M1 :
    shows (exec .meas (withRaw 204))
      (fun t => (t.measRaw, t.measVoltage, t.measDensity, t.measSeq, t.ready, t.baseline)) =
        some (204, 997067, 67501390, 1, true, 600000) := by decide

/-- M2 with M8's sequence number: the baseline falls, the number wraps. -/
theorem test_meas_M2 :
    shows (exec .meas { withRaw 112 with measSeq := 0xFFFFFFFF })
      (fun t => (t.measRaw, t.measVoltage, t.measDensity, t.measSeq, t.baseline)) =
        some (112, 547409, 0, 0, 547409) := by decide

/-- B6: all 16 bits. -/
theorem test_rdraw_B6 :
    shows (exec .rdraw (stateAt { Cfg.scenario with adcMax := 65535 } .ledOff 0 65535 (doneWith 0)))
      (fun t => (t.out, memRead t)) = some ([.rdraw 65535], 65535) := by decide

/-- K1. -/
theorem test_take_K1 :
    shows (exec .take { withRaw 204 with measRaw := 204, measVoltage := 997067, measDensity := 67501390, measSeq := 1, ready := true })
      (fun t => (t.out, t.ready, t.measSeq)) =
        some ([.take 0x100000001000000000405FD4E000F36CB00CC#145], false, 1) := by decide

/-- K3, after `RESET`: all zero. -/
theorem test_take_K3 : shows (exec .take State.reset) (fun t => t.out) = some [.take 0] := by decide

/-- X1 and the `RESET` in the middle of a run (section 6). -/
theorem test_reset_X1 :
    shows (exec .reset { stateAt .scenario .ledOff 300 204 State.reset.pins with baseline := 547409, measSeq := 9, ready := true })
      (fun t => (t.ticksInPhase, memRead t, t.baseline, t.measSeq, t.ready, t.cfgErr)) =
        some (0, 0, 600000, 0, false, 0b00000) := by decide

/-- X4: `sample=0, off=607`. -/
theorem test_reset_X4 :
    shows (exec .reset { State.reset with
        pins := { State.reset.pins with cfgIn := packCfg { Cfg.scenario with sampleTicks := 0, offTicks := 607 } } })
      (fun t => (t.halted, t.cfgErr, t.baseline)) = some (true, 0b00001, 600000) := by decide

/-- `IDLE` in a halted block changes nothing. -/
theorem test_idle : shows (exec .idle haltedState) (fun t => decide (t = haltedState)) = some true := by decide

/-- Raw 512: floor, not round to nearest (section 4.1). -/
theorem test_r2v_floor :
    shows (exec .r2v (withLatches { Latches.cleared with rawOut := 512 })) (fun t => t.lat.volt) = some 2502443 := by decide

/-- The largest operands (section 4.1). -/
theorem test_r2v_largest :
    shows (exec .r2v { withLatches { Latches.cleared with rawOut := 65535 } with
        cfg := { Cfg.scenario with vccFx := 0xFFFFFFFF, adcMax := 65535 } })
      (fun t => t.lat.volt) = some 0xFFFFFFFF := by decide

/-- U-2 and U-3: the comparison is strict. -/
theorem test_updb :
    shows (exec .updb (withLatches { Latches.cleared with volt := 600000 })) (fun t => t.baseline) = some 600000 ∧
    shows (exec .updb (withLatches { Latches.cleared with volt := 599999 })) (fun t => t.baseline) = some 599999 := by decide

/-- V-5 and V-7: saturated below, scaled above. -/
theorem test_v2d :
    shows (exec .v2d (withLatches { Latches.cleared with volt := 547409 })) (fun t => t.lat.dens) = some 0 ∧
    shows (exec .v2d (withLatches { Latches.cleared with volt := 601173 })) (fun t => t.lat.dens) = some 199410 := by decide

/-- V-13: the largest density fits. -/
theorem test_v2d_largest :
    v2d 0 0xFFFFFFFF 0xFFFFFFFF = 18446744065119617025 := by decide

/-- B2. -/
theorem test_wrraw_B2 :
    shows (exec .wrraw (withLatches { Latches.cleared with readAnswer := 204 })) memRead = some 204 := by decide

/-- T11: the configured channel goes out. -/
theorem test_adcSel_T11 :
    shows (exec .adcSel { State.reset with cfg := { Cfg.scenario with adcCh := 5 } }) (fun t => (t.out, t.adc.channel)) =
      some ([.adcSel 5], 5) := by decide

theorem test_adcStart : shows (exec .adcStart State.reset) (fun t => (t.out, t.adc.converting)) = some ([.adcStart], true) := by
  decide

/-- T6's last two polls. -/
theorem test_adcPoll :
    shows (exec .adcPoll { State.reset with pins := { State.reset.pins with adcDoneAfter := some 1 } })
      (fun t => (t.out, t.pins.adcDoneAfter)) = some ([.adcPoll false], some 0) ∧
    shows (exec .adcPoll { State.reset with pins := doneWith 7 }) (fun t => (t.out, t.lat.pollAnswer)) =
      some ([.adcPoll true], true) := by decide

/-- T3's answer. -/
theorem test_adcRead_T3 :
    shows (exec .adcRead { State.reset with pins := doneWith 1023 }) (fun t => (t.out, t.lat.readAnswer)) =
      some ([.adcRead 1023], 1023) := by decide

/-- T7's command. -/
theorem test_ledClr : shows (exec .ledClr { State.reset with ledOn := true }) (fun t => (t.out, t.ledOn, ledPin t)) =
    some ([.ledClr], false, false) := by decide

/-- T16: an active-low LED. -/
theorem test_ledSet_T16 :
    shows (exec .ledSet { State.reset with cfg := { Cfg.scenario with ledActiveHigh := false } })
      (fun t => (t.out, t.ledOn, ledPin t)) = some ([.ledSet], true, false) := by decide

/-! ### The step and the environment's side -/

/-- P8: `75`, `79`, and a first word other than `7`, have no step. -/
theorem test_step_refusals :
    step (State.reset.withFetchWord 4 0x5) = .refused (.reservedCode 0x5) ∧
    step (State.presenting State.reset [{ via := .opInput, word := .op4 0x9, pins := State.reset.pins }]) =
      .refused (.wrongPort .updb) ∧
    step (State.presenting freshState [present .tick State.reset.pins]) = .refused .beforeFirstReset := ⟨rfl, rfl, rfl⟩

/-- A word placed by `withFetchWord` runs as the next step. -/
theorem test_step_runs_fetched_word :
    step (State.reset.withFetchWord 4 0x1) = exec .tick State.reset ∧
    step (State.reset.withFetchWord 4 0xB) = exec .wrraw State.reset ∧
    step (State.reset.withFetchWord 2 0x0) = exec .adcSel State.reset := ⟨rfl, rfl, rfl⟩

/-- R222. -/
theorem test_serialise :
    serialise { reset := false, tick := true, meas := true, take := true, rdraw := true } = [.tick, .meas, .take, .rdraw] ∧
    serialise { reset := true, tick := true, meas := true, take := false, rdraw := false } = [.reset] := by decide

/-- P1's encoding `711111`. -/
theorem test_trace_P1 :
    traceWords (.reset cfgS :: cycle cfgS (.done 0 204)) = [0x7, 0x1, 0x1, 0x1, 0x1, 0x1] ∧
    adcWellPlaced none (.reset cfgS :: cycle cfgS (.done 0 204)) = true ∧
    adcWellPlaced none (.reset cfgS :: [.tickAdc .timeout]) = false := by decide

/-! ### Witnesses: states and operands that meet the hypotheses of each statement -/

theorem cfgS_legal : Cfg.Legal cfgS := by
  refine ⟨by decide, by decide, by decide, by decide, by decide, ?_⟩
  show |((2 + 1 + 2) * 2000000 : ℤ) - 10000000| ≤ Config.periodTolNs
  norm_num

theorem scenario_legal : Cfg.Legal Cfg.scenario := by
  refine ⟨by decide, by decide, by decide, by decide, by decide, ?_⟩
  show |((18 + 2 + 605) * 16000 : ℤ) - 10000000| ≤ Config.periodTolNs
  norm_num

/-- A running state inside a cycle, with a sample and the program given. -/
def midCycle (ps : List Presentation) : State := State.presenting (stateAt cfgS .ledOff 1 204 (doneWith 300)) ps

theorem midCycle_inv (ps : List Presentation) : Inv (midCycle ps) where
  memory := rfl
  cursor _ _ := by show (1#16).toNat < (2#16).toNat; decide
  fault _ := ⟨by show 0#5 = validate cfgS; decide, by show false = true ↔ 0#5 ≠ 0; decide⟩
  contract _ _ := by
    show (204#16).toNat ≤ (1023#16).toNat ∧ (0#16).toNat ≤ (1023#16).toNat ∧ (0#16).toNat ≤ (1023#16).toNat ∧
      (0#16).toNat ≤ (1023#16).toNat
    decide
  baseline _ := by show (600000#32).toNat ≤ (600000#32).toNat; decide
  meas _ _ := ⟨by show 0#32 = r2v cfgS 0; decide, by show (0#64).toNat ≤ (0#32).toNat * (170#32).toNat; decide⟩
  halted _ h := by cases h

theorem haltedState_inv : Inv haltedState where
  memory := rfl
  cursor _ h := by cases h
  fault _ := ⟨by show 0b10000#5 = validate { Cfg.scenario with slopeFx := 0 }; decide, by show true = true ↔ 0b10000#5 ≠ 0; decide⟩
  contract _ h := by cases h
  baseline _ := by show (600000#32).toNat ≤ (600000#32).toNat; decide
  meas _ h := by cases h
  halted _ _ := by decide

/-- A presentation of `TICK` with an ADC inside its contract. -/
def tickOk : Presentation := present .tick (doneWith 300)

theorem tickOk_isTick : IsTick cfgS tickOk := ⟨rfl, rfl, fun _ => by show (300#16).toNat ≤ (1023#16).toNat; decide⟩

/-- A presentation of `TICK` whose sampling, if it samples, times out. -/
def tickTimeout : Presentation := present .tick State.reset.pins

theorem tickTimeout_isTick : IsTick cfgS tickTimeout := ⟨rfl, rfl, fun h => by cases h⟩

theorem five_ticks : ∀ p ∈ [tickOk, tickOk, tickOk, tickOk, tickOk], IsTick cfgS p := by
  simp [tickOk_isTick]

theorem witness_ReservedCodesHaveNoStep :
    let p (w : BitVec 4) : Presentation := { via := .opInput, word := .op4 w, pins := State.reset.pins }
    (∃ s : State, s.program = p 0x5 :: [] ∧ (p 0x5).word = .op4 0x5 ∧ decode (.op4 0x5) = .error (.reservedCode 0x5)) ∧
    ∃ s : State, s.program = p 0xF :: [] ∧ (p 0xF).word = .op4 0xF ∧ decode (.op4 0xF) = .error (.reservedCode 0xF) :=
  ⟨⟨State.presenting State.reset _, rfl, rfl, rfl⟩, ⟨State.presenting State.reset _, rfl, rfl, rfl⟩⟩

theorem witness_InternalCodesRefusedOnOpInput :
    ∀ w ∈ [0x8#4, 0xB#4], ∃ (s : State) (p : Presentation),
      s.program = p :: [] ∧ p.via = .opInput ∧ p.word = .op4 w ∧ 0x8 ≤ w.toNat ∧ w.toNat ≤ 0xB := by
  intro w hw
  refine ⟨State.presenting State.reset [{ via := .opInput, word := .op4 w, pins := State.reset.pins }], _, rfl, rfl, rfl, ?_⟩
  revert w
  decide

theorem witness_CycleExpandsToTickWords :
    1 ≤ cfgS.settleTicks.toNat ∧ 1 ≤ cfgS.sampleTicks.toNat ∧ 1 ≤ cfgS.offTicks.toNat ∧
      (AdcOutcome.done 0 1023).legal cfgS = true ∧ AdcOutcome.timeout.legal cfgS = true := by decide

theorem witness_ResetStateIsTheScenarioReset :
    (withRaw 204).pins.cfgIn = scenarioWord ∧ Memory.wf (withRaw 204).rawbuf = true := ⟨rfl, rfl⟩

theorem witness_ValidResetLeavesTheResetValues :
    Memory.wf (withRaw 204).rawbuf = true ∧ (unpackCfg (withRaw 204).pins.cfgIn).Legal := by
  refine ⟨rfl, ?_⟩
  rw [show unpackCfg (withRaw 204).pins.cfgIn = Cfg.scenario by decide]
  exact scenario_legal

/-- The ports with `slope = 0` on `cfg_in`. -/
def badPins : Pins := { State.reset.pins with cfgIn := packCfg { Cfg.scenario with slopeFx := 0 } }

theorem witness_InvalidResetHaltsWithItsCause :
    Memory.wf { State.reset with pins := badPins }.rawbuf = true ∧ ¬ (unpackCfg badPins.cfgIn).Legal := by
  refine ⟨rfl, fun h => ?_⟩
  have h5 : 1 ≤ (unpackCfg badPins.cfgIn).slopeFx.toNat := h.2.2.2.2.1
  revert h5
  decide

theorem witness_ResetForgetsTheStateBefore :
    Memory.wf (withRaw 204).rawbuf = true ∧ Memory.wf freshState.rawbuf = true ∧
      (withRaw 204).pins.cfgIn = freshState.pins.cfgIn ∧ (withRaw 204).rawbuf ≠ freshState.rawbuf := by decide

theorem witness_HaltedBlockIsInert : Inv haltedState ∧ haltedState.started = true ∧ haltedState.halted = true :=
  ⟨haltedState_inv, rfl, rfl⟩

theorem witness_HaltedRegistersChangeOnlyByReset :
    Inv haltedState ∧ haltedState.started = true ∧ haltedState.halted = true ∧ Instr.take ≠ .reset ∧
      Instr.wrraw ≠ .reset ∧ Instr.wrraw.isExternal = false := ⟨haltedState_inv, by decide⟩

theorem witness_SettleTickTurnsTheLedOn :
    ∀ n ∈ [0#16, 17#16], (stateAt .scenario .ledOnSettle n 0 (doneWith 0)).halted = false ∧
      (stateAt .scenario .ledOnSettle n 0 (doneWith 0)).phase = .ledOnSettle := fun _ _ => ⟨rfl, rfl⟩

/-- Both outcomes, with the result at its bound, in a sample phase of one tick and of two. -/
theorem witness_SamplingTickHasTwoOutcomes :
    ∀ c ∈ [Cfg.scenario, cfgS],
      let s := stateAt c .ledOnSample 0 0 (doneWith 1023)
      let u := stateAt c .ledOnSample 0 0 State.reset.pins
      (s.halted = false ∧ s.phase = .ledOnSample ∧ s.ticksInPhase = 0 ∧ s.pins.adcDoneAfter = some 0 ∧
        0 < Config.adcPollMax ∧ s.pins.adcResult.toNat ≤ s.cfg.adcMax.toNat ∧ Memory.wf s.rawbuf = true) ∧
      u.halted = false ∧ u.phase = .ledOnSample ∧ u.ticksInPhase = 0 ∧
        ∀ k, u.pins.adcDoneAfter = some k → Config.adcPollMax ≤ k := by
  intro c _
  refine ⟨⟨rfl, rfl, rfl, rfl, adcPollMax_pos, ?_, rfl⟩, rfl, rfl, rfl, fun k h => by cases h⟩
  rename_i hc
  simp only [List.mem_cons, List.not_mem_nil, or_false] at hc
  rcases hc with rfl | rfl <;> decide

theorem witness_SamplingTickTimesOutAtTheBound :
    let u := stateAt .scenario .ledOnSample 0 0 { State.reset.pins with adcDoneAfter := some Config.adcPollMax }
    u.halted = false ∧ u.phase = .ledOnSample ∧ u.ticksInPhase = 0 ∧
      ∀ k, u.pins.adcDoneAfter = some k → Config.adcPollMax ≤ k :=
  ⟨rfl, rfl, rfl, fun k h => by cases h; exact Nat.le_refl _⟩

theorem witness_AdcResultAboveMaxHasNoStep :
    let s := stateAt .scenario .ledOnSample 0 0 (doneWith 1024)
    s.halted = false ∧ s.cfg.adcMax.toNat < s.pins.adcResult.toNat ∧ s.phase = .ledOnSample ∧ s.ticksInPhase = 0 ∧
      s.pins.isDone = true := by decide

theorem witness_LaterSampleTickOnlyCounts :
    let s := stateAt .scenario .ledOnSample 1 204 (doneWith 0)
    s.halted = false ∧ s.phase = .ledOnSample ∧ s.ticksInPhase ≠ 0 := by decide

theorem witness_OffTickOnlyCounts :
    ∀ n ∈ [0#16, 604#16], (stateAt .scenario .ledOff n 0 (doneWith 0)).halted = false ∧
      (stateAt .scenario .ledOff n 0 (doneWith 0)).phase = .ledOff := fun _ _ => ⟨rfl, rfl⟩

theorem witness_HaltedTickDoesNothing : haltedState.halted = true := rfl

theorem witness_TimeoutTouchesNoRegister :
    let s := stateAt .scenario .ledOnSample 0 204 State.reset.pins
    s.pins.isDone = false ∧ (doneWith 1023).isDone = true ∧ (doneWith 1023).adcResult.toNat ≤ s.cfg.adcMax.toNat := by decide

/-- The start of a cycle with its ticks to come: all five of `CFG_S`, or none. -/
theorem witness_CursorAlongACycle :
    ∀ ps ∈ [[], [tickOk, tickOk, tickOk, tickOk, tickOk]],
      let s := State.presenting (stateAt cfgS .ledOnSettle 0 0 (doneWith 0)) (ps ++ [])
      s.started = true ∧ s.halted = false ∧ 1 ≤ s.cfg.settleTicks.toNat ∧ 1 ≤ s.cfg.sampleTicks.toNat ∧
        1 ≤ s.cfg.offTicks.toNat ∧ s.phase = .ledOnSettle ∧ s.ticksInPhase = 0 ∧ s.program = ps ++ [] ∧
        (∀ p ∈ ps, IsTick s.cfg p) ∧ ps.length ≤ s.cfg.cycleTicks := by
  intro ps hps
  simp only [List.mem_cons, List.not_mem_nil, or_false] at hps
  rcases hps with rfl | rfl
  · exact ⟨rfl, rfl, by decide, by decide, by decide, rfl, rfl, rfl, by simp, by decide⟩
  · exact ⟨rfl, rfl, by decide, by decide, by decide, rfl, rfl, rfl, five_ticks, by decide⟩

/-- As above; the third tick samples, and either is done, times out, or has not come. -/
theorem witness_CycleTriggersOnceAndPulsesTheLed :
    ∀ ps ∈ [[tickOk, tickOk], [tickOk, tickOk, tickOk], [tickOk, tickOk, tickTimeout]],
      let s := State.presenting (stateAt cfgS .ledOnSettle 0 204 (doneWith 0)) (ps ++ [])
      s.started = true ∧ s.halted = false ∧ Memory.wf s.rawbuf = true ∧ 1 ≤ s.cfg.settleTicks.toNat ∧
        1 ≤ s.cfg.sampleTicks.toNat ∧ 1 ≤ s.cfg.offTicks.toNat ∧ s.phase = .ledOnSettle ∧ s.ticksInPhase = 0 ∧
        s.program = ps ++ [] ∧ (∀ p ∈ ps, IsTick s.cfg p) ∧ ps.length ≤ s.cfg.cycleTicks := by
  have h : ∀ p ∈ [tickOk, tickTimeout], IsTick cfgS p := by simp [tickOk_isTick, tickTimeout_isTick]
  intro ps hps
  simp only [List.mem_cons, List.not_mem_nil, or_false] at hps
  rcases hps with rfl | rfl | rfl
  all_goals
    refine ⟨rfl, rfl, rfl, by decide, by decide, by decide, rfl, rfl, rfl, fun p hp => h p ?_, by decide⟩
    simp only [List.mem_cons, List.not_mem_nil, or_false] at hp ⊢
    tauto

theorem witness_AnyCycleOfTicksSamplesOnce :
    let ps := [tickOk, tickOk, tickOk, tickOk, tickOk]
    Inv (midCycle (ps ++ [])) ∧ (midCycle (ps ++ [])).started = true ∧ (midCycle (ps ++ [])).halted = false ∧
      (midCycle (ps ++ [])).program = ps ++ [] ∧ (∀ p ∈ ps, IsTick (midCycle (ps ++ [])).cfg p) ∧
      ps.length = (midCycle (ps ++ [])).cfg.cycleTicks := ⟨midCycle_inv _, rfl, rfl, rfl, five_ticks, by decide⟩

theorem witness_AdcCommandsGoOutOnThePort :
    let s : State := { State.reset with pins := doneWith 1023 }
    (s.halted = false ∧ s.pins.adcDoneAfter = some 0 ∧ s.pins.adcResult.toNat ≤ s.cfg.adcMax.toNat) ∧
      State.reset.halted = false ∧ State.reset.pins.adcDoneAfter ≠ some 0 := by decide

theorem witness_LedCommandsDriveThePin : State.reset.halted = false := rfl

theorem witness_WrrawReplacesTheElement : (withRaw 204).halted = false ∧ Memory.wf (withRaw 204).rawbuf = true := by decide

theorem witness_ReadsHaveNoSideEffect :
    let s := withLatches { Latches.cleared with readAnswer := 204 }
    Memory.wf s.rawbuf = true ∧ exec .wrraw s = .next { s with rawbuf := [(0, 204)] } := ⟨rfl, rfl⟩

/-- A run of a tick that samples and a read, on the `op` input. -/
theorem witness_EveryReadReturnsTheLatestWrite :
    let s := State.presenting (stateAt cfgS .ledOnSample 0 204 (doneWith 0)) [tickOk, present .rdraw State.reset.pins]
    Memory.wf s.rawbuf = true ∧ (∀ p ∈ s.program, IsOrdinary p) ∧ ∃ t, stepN 2 s = .next t := by
  refine ⟨rfl, ?_, ⟨_, rfl⟩⟩
  intro p hp
  have hp : p ∈ [tickOk, present .rdraw State.reset.pins] := hp
  simp only [List.mem_cons, List.not_mem_nil, or_false] at hp
  rcases hp with rfl | rfl <;> exact ⟨rfl, by decide⟩

/-- The same, and for the running minimum, right after a `RESET`. -/
theorem witness_RunRightAfterReset :
    ∀ i ∈ [Instr.rdraw, Instr.meas], ∃ r s : State, Memory.wf r.rawbuf = true ∧ exec .reset r = .next s ∧
      (∀ p ∈ s.program, IsOrdinary p) ∧ ∃ t, stepN 1 s = .next t := by
  have h : ∀ i ∈ [Instr.rdraw, Instr.meas], IsOrdinary (present i State.reset.pins) := by
    intro i hi
    simp only [List.mem_cons, List.not_mem_nil, or_false] at hi
    rcases hi with rfl | rfl <;> exact ⟨rfl, by decide⟩
  have run : ∀ i, IsOrdinary (present i State.reset.pins) →
      ∀ p ∈ [present i State.reset.pins], IsOrdinary p := fun i hi p hp => List.mem_singleton.mp hp ▸ hi
  intro i hi
  have ho := run i (h i hi)
  simp only [List.mem_cons, List.not_mem_nil, or_false] at hi
  rcases hi with rfl | rfl
  · exact ⟨State.presenting (withRaw 204) [present .rdraw State.reset.pins],
      State.presenting State.reset [present .rdraw State.reset.pins], rfl,
      congrArg Host.Outcome.next (by decide), ho, _, rfl⟩
  · exact ⟨State.presenting (withRaw 204) [present .meas State.reset.pins],
      State.presenting State.reset [present .meas State.reset.pins], rfl,
      congrArg Host.Outcome.next (by decide), ho, _, rfl⟩

theorem witness_R2vFloorsTheExactQuotient :
    let s := withLatches { Latches.cleared with rawOut := 1023 }
    s.halted = false ∧ s.lat.rawOut.toNat ≤ s.cfg.adcMax.toNat ∧ 1 ≤ s.cfg.adcMax.toNat := by decide

/-- The three kinds of configuration the clauses speak of. -/
theorem witness_VoltageProperties :
    let a := Cfg.scenario
    let b := { Cfg.scenario with vccFx := 500 }
    let z := { Cfg.scenario with vccFx := 0 }
    (1 ≤ a.adcMax.toNat ∧ a.adcMax.toNat ≤ a.vccFx.toNat) ∧ (1 ≤ b.adcMax.toNat ∧ b.vccFx.toNat < b.adcMax.toNat) ∧
      1 ≤ z.adcMax.toNat ∧ z.vccFx = 0 ∧ (1022#16).toNat < (1023#16).toNat ∧ (1023#16).toNat ≤ a.adcMax.toNat := by decide

theorem witness_VoltageIsTheRealOneRoundedDown :
    1 ≤ Cfg.scenario.adcMax.toNat ∧ (1023 : RawCode).toNat ≤ Cfg.scenario.adcMax.toNat ∧
      Cfg.scenario.adcMax.toNat ∣ (1023 : RawCode).toNat * Cfg.scenario.vccFx.toNat := by decide

theorem witness_UpdbTakesTheMinimum : State.reset.halted = false := rfl

/-- Equal to the baseline, where both clauses apply and agree, below it and above it. -/
theorem witness_V2dScalesTheExcess :
    let s (v : Volt) := withLatches { Latches.cleared with volt := v }
    (s 600000).halted = false ∧ (s 600000).lat.volt.toNat ≤ (s 600000).baseline.toNat ∧
      (s 600000).baseline.toNat ≤ (s 600000).lat.volt.toNat ∧ (s 0).lat.volt.toNat ≤ (s 0).baseline.toNat ∧
      (s 600001).baseline.toNat ≤ (s 600001).lat.volt.toNat := by decide

theorem witness_DensityProperties :
    1 ≤ (1 : Slope).toNat ∧ (600000 : Volt).toNat ≤ (600000 : Volt).toNat ∧ (600000 : Volt).toNat < (600001 : Volt).toNat ∧
      (600000 : Volt).toNat ≤ (5000000 : Volt).toNat ∧ (600001 : Volt).toNat ≤ (5000000 : Volt).toNat := by decide

theorem witness_MeasPublishesAMeasurement :
    (withRaw 1023).halted = false ∧ (memRead (withRaw 1023)).toNat ≤ (withRaw 1023).cfg.adcMax.toNat ∧
      1 ≤ (withRaw 1023).cfg.adcMax.toNat := by decide

/-- Raw code 1024 where `ADC_MAX` is 1023, and `ADC_MAX` 0, in states no run reaches. -/
theorem witness_OutOfContractVoltageIsFree :
    ∀ s ∈ [{ withRaw 1024 with lat := { Latches.cleared with rawOut := 1024 } },
        { State.reset with cfg := { Cfg.scenario with adcMax := 0 } }],
      s.halted = false ∧ (s.cfg.adcMax.toNat < s.lat.rawOut.toNat ∨ s.cfg.adcMax = 0) ∧
        (s.cfg.adcMax.toNat < (memRead s).toNat ∨ s.cfg.adcMax = 0) := by decide

theorem witness_MeasDensityAgainstTheOldBaseline :
    ∀ r ∈ [112#16, 204#16], (withRaw r).halted = false ∧ ∃ t, exec .meas (withRaw r) = .next t :=
  fun _ _ => ⟨rfl, _, rfl⟩

theorem witness_MeasIsItsMicroOperations : (withRaw 204).halted = false := rfl

theorem witness_RepeatedMeasDiffersOnlyInSeq : (withRaw 204).halted = false := rfl

theorem witness_EarlyMeasLosesTheCalibration :
    (State.reset.halted = false ∧ 1 ≤ State.reset.cfg.adcMax.toNat ∧ memRead State.reset = 0) ∧
      { withRaw 204 with baseline := 0 }.halted = false ∧ { withRaw 204 with baseline := 0 }.baseline = 0 ∧
      ∃ v, exec .meas { withRaw 204 with baseline := 0 } = .next v := ⟨by decide, rfl, rfl, _, rfl⟩

theorem witness_BaselineIsTheRunningMinimum :
    let s := State.presenting (withRaw 112) [present .meas State.reset.pins]
    (∀ p ∈ s.program, IsOrdinary p) ∧ ∃ t, stepN 1 s = .next t := by
  refine ⟨?_, ⟨_, rfl⟩⟩
  intro p hp
  have hp : p ∈ [present .meas State.reset.pins] := hp
  simp only [List.mem_cons, List.not_mem_nil, or_false] at hp
  subst hp
  exact ⟨rfl, by decide⟩

theorem witness_OnlyOwnersWriteARegister : ∃ t, exec .idle State.reset = .next t := ⟨_, rfl⟩

theorem witness_ContextsDoNotSeeEachOther :
    (∃ t, exec .tick (withRaw 204) = .next t) ∧ (∃ t, exec .meas (withRaw 204) = .next t) ∧
      (∃ t, exec .rdraw (withRaw 204) = .next t) ∧ ∃ t, exec .take (withRaw 204) = .next t :=
  ⟨⟨_, rfl⟩, ⟨_, rfl⟩, ⟨_, rfl⟩, ⟨_, rfl⟩⟩

theorem witness_HiddenStateIsNeverRead : Instr.meas.isExternal = true ∧ ∃ t, exec .meas (withRaw 204) = .next t :=
  ⟨rfl, _, rfl⟩

theorem witness_StepExecutesThePresentedOperation :
    let s := State.presenting (withRaw 204) [present .meas State.reset.pins]
    (s.program = present .meas State.reset.pins :: [] ∧ decode (present .meas State.reset.pins).word = .ok .meas ∧
      Instr.meas.wellFormedVia (present .meas State.reset.pins).via = true ∧ s.started = true) ∧
    State.reset.program = [] ∧ State.reset.started = true := by decide

theorem witness_NothingRunsBeforeTheFirstReset :
    ∀ i ∈ [Instr.tick, Instr.reset],
      (State.presenting freshState [present i State.reset.pins]).started = false ∧
      (State.presenting freshState [present i State.reset.pins]).program = present i State.reset.pins :: [] ∧
      decode (present i State.reset.pins).word = .ok i ∧ i.wellFormedVia (present i State.reset.pins).via = true := by decide

theorem witness_EveryExternalOperationCompletes :
    let p := present .tick (doneWith 1023)
    let s := State.presenting (stateAt cfgS .ledOnSample 0 0 (doneWith 0)) [p]
    s.program = p :: [] ∧ p.via = .opInput ∧ decode p.word = .ok .tick ∧ Instr.tick.isExternal = true ∧
      s.started = true ∧ AdcInContract s.cfg p.pins :=
  ⟨rfl, rfl, rfl, rfl, rfl, fun _ => by show (1023#16).toNat ≤ (1023#16).toNat; decide⟩

theorem witness_StepKeepsTheInvariant : Inv (midCycle [tickOk]) ∧ ∃ t, step (midCycle [tickOk]) = .next t :=
  ⟨midCycle_inv _, _, rfl⟩

theorem witness_StepKeepsTheLedWithTheCursor :
    Inv (midCycle [tickOk]) ∧ LedInv (midCycle [tickOk]) ∧ OnOpInput (midCycle [tickOk]) ∧
      ∃ t, step (midCycle [tickOk]) = .next t := ⟨midCycle_inv _, fun _ => rfl, rfl, _, rfl⟩

theorem witness_ArithmeticFitsItsWidths :
    Inv (midCycle []) ∧ (midCycle []).started = true ∧ (midCycle []).halted = false := ⟨midCycle_inv _, rfl, rfl⟩

/-! An endless run: a `RESET` that presents `CFG_S`, then `TICK` for ever, the ADC never done. -/

/-- Its environment. -/
def endlessEnv : Environment
  | 0 => present .reset { State.reset.pins with cfgIn := packCfg cfgS }
  | _ + 1 => tickTimeout

/-- The next state of a result that has one. -/
def nextOr (s : State) : Result → State
  | .next t => t
  | .fault _ => s
  | .refused _ => s

/-- Its states, from a block before its first `RESET`. -/
def endlessRun : Nat → State
  | 0 => freshState
  | k + 1 => nextOr (endlessRun k) (stepUnder (endlessEnv k) (endlessRun k))

theorem timeout_tick_completes {s : State} (h : s.pins.adcDoneAfter = none) :
    ∃ t, execTick s = .next t ∧ t.started = s.started := by
  cases hh : s.halted with
  | true => exact ⟨s, unlessHalted_halted hh _, rfl⟩
  | false =>
    cases hp : s.phase with
    | ledOnSettle => exact ⟨_, execTick_settle hh hp, rfl⟩
    | ledOff => exact ⟨_, execTick_off hh hp, rfl⟩
    | ledOnSample =>
      by_cases hc : s.ticksInPhase = 0
      · have hs := adcSample_timeout (s := s) fun k hk => by rw [h] at hk; cases hk
        rw [execTick_sampling hh hp hc, hs, andThen_next]
        refine ⟨_, rfl, ?_⟩
        rw [sampleTickEnd_eq (by exact hp)]
      · rw [execTick_later hh hp hc]
        refine ⟨_, rfl, ?_⟩
        rw [sampleTickEnd_eq hp]

theorem endlessRun_step (k : Nat) :
    stepUnder (endlessEnv k) (endlessRun k) = .next (endlessRun (k + 1)) ∧ (endlessRun (k + 1)).started = true := by
  induction k with
  | zero => exact ⟨rfl, rfl⟩
  | succ k ih =>
    have h : stepUnder (endlessEnv (k + 1)) (endlessRun (k + 1)) =
        execTick { endlessRun (k + 1) with pins := tickTimeout.pins } := by
      have ha : accept (endlessRun (k + 1)).started (endlessEnv (k + 1)) = .ok .tick := by rw [ih.2]; rfl
      rw [stepUnder_eq, ha]; rfl
    obtain ⟨t, ht, hs⟩ := timeout_tick_completes (s := { endlessRun (k + 1) with pins := tickTimeout.pins }) rfl
    have hn : endlessRun (k + 1 + 1) = t := by rw [endlessRun, h, ht]; rfl
    rw [h, ht, hn]
    exact ⟨rfl, hs.trans ih.2⟩

theorem endlessRun_isRun (len : ℕ∞) : IsRun len endlessEnv endlessRun where
  opInput k _ := by cases k <;> rfl
  first _ := rfl
  steps k _ := (endlessRun_step k).1

theorem witness_EveryEnvironmentHasAnEndlessRun :
    (∀ k, (endlessEnv k).via = .opInput ∧ ∃ i, decode (endlessEnv k).word = .ok i ∧ i.isExternal = true) ∧
      (endlessEnv 0).word = encode .reset ∧
      ∀ k t, 1 ≤ k → stepsUnder endlessEnv freshState k = .next t → AdcInContract t.cfg (endlessEnv k).pins := by
  refine ⟨fun k => ?_, rfl, fun k t hk _ => ?_⟩
  · cases k
    · exact ⟨rfl, .reset, rfl, rfl⟩
    · exact ⟨rfl, .tick, rfl, rfl⟩
  · obtain ⟨k, rfl⟩ := Nat.exists_eq_add_of_le' hk
    intro h
    cases h

theorem witness_EveryCycleEventuallySamples :
    IsRun ⊤ endlessEnv endlessRun ∧ Memory.wf (endlessRun 0).rawbuf = true ∧ endlessEnv.Fair ∧ 1 ≤ 1 ∧
      endlessEnv.NoResetFrom 1 ∧ (endlessRun 1).halted = false := by
  refine ⟨endlessRun_isRun ⊤, rfl, fun n => ⟨n + 1, by omega, rfl⟩, by decide, fun k hk => ?_, by decide⟩
  obtain ⟨k, rfl⟩ := Nat.exists_eq_add_of_le' hk
  show encode .tick ≠ encode .reset
  decide

/-- A prefix of an infinite run, and the empty and the whole prefix of a finite one. -/
theorem witness_EveryPrefixOfARunIsARun :
    (IsRun ⊤ endlessEnv endlessRun ∧ (6 : ℕ∞) ≤ ⊤) ∧ (IsRun 3 endlessEnv endlessRun ∧ (0 : ℕ∞) ≤ 3 ∧ (3 : ℕ∞) ≤ 3) ∧
      Memory.wf (endlessRun 0).rawbuf = true :=
  ⟨⟨endlessRun_isRun ⊤, le_top⟩, ⟨endlessRun_isRun 3, zero_le, le_refl _⟩, rfl⟩

end Sys2Proof.Tests
end

/-! What the block's operations keep, and runs of any length (00_scope R11, R13, R258). -/

namespace Sys2Proof.Machine

/-! ### Words, acceptance and one step of an environment -/

theorem decode_encode (i : Instr) : decode (encode i) = .ok i := by cases i <;> rfl

/-- No word decodes to an operation but that operation's own. -/
theorem encode_of_decode {w : PortWord} {i : Instr} (h : decode w = .ok i) : encode i = w := by
  cases w with
  | op4 w =>
    have table : ∀ w : BitVec 4, (decodeOp4 w).toOption.all (encode · == .op4 w) = true := by decide
    have hw := table w
    rw [show decodeOp4 w = .ok i from h] at hw
    exact beq_iff_eq.mp hw
  | adc2 w =>
    obtain rfl := Except.ok.inj h
    revert w
    decide
  | led1 w =>
    obtain rfl := Except.ok.inj h
    revert w
    decide
  | other n w => cases h

/-- A step of an environment is its operation, accepted and executed with the presentation's inputs on the ports. -/
theorem stepUnder_eq_next {p : Presentation} {s t : State} (h : stepUnder p s = .next t) :
    ∃ i, accept s.started p = .ok i ∧ exec i { s with pins := p.pins } = .next t := step_eq_next h

theorem stepUnder_of_accept {p : Presentation} {s : State} {i : Instr} (h : accept s.started p = .ok i) :
    stepUnder p s = exec i { s with pins := p.pins } := by rw [stepUnder_eq, h]

/-- A step under a schedule whose head is `p` is a step of an environment that presents `p`, with the rest left (log 6). -/
theorem step_withProgram_cons (p : Presentation) (q : List Presentation) (s : State) :
    step (s.withProgram (p :: q)) = withSchedule q (stepUnder p s) := by
  rw [stepUnder_eq]
  cases h : accept s.started p with
  | error e => rw [step, show accept _ (currentPresentation _) = _ from h]; rfl
  | ok i =>
    rw [step, show accept _ (currentPresentation _) = _ from h]
    exact exec_schedule q i { s with pins := p.pins }

/-- The last of `n + 1` steps split off. -/
theorem stepN_succ_last (n : Nat) (s : State) : stepN (n + 1) s = andThen (stepN n s) step := by
  induction n generalizing s with
  | zero => show andThen (step s) _ = step s; cases step s <;> rfl
  | succ n ih =>
    rw [stepN, stepN]
    cases step s with
    | next t => exact ih t
    | fault e => rfl
    | refused e => rfl

/-! ### The guard on `halted` -/

theorem eq_of_unlessHalted_halted {s t : State} {r : Result} (hh : s.halted = true) (h : unlessHalted s r = .next t) :
    t = s := by
  rw [unlessHalted_halted hh] at h
  exact (Host.Outcome.next.inj h).symm

theorem eq_of_unlessHalted_running {s t u : State} (hh : s.halted = false) (h : unlessHalted s (.next u) = .next t) :
    t = u := by
  rw [unlessHalted_running hh] at h
  exact (Host.Outcome.next.inj h).symm

theorem unlessHalted_next_completes (s u : State) : ∃ t, unlessHalted s (.next u) = .next t := by
  cases hh : s.halted with
  | true => exact ⟨s, unlessHalted_halted hh _⟩
  | false => exact ⟨u, unlessHalted_running hh _⟩

/-! ### What a sample and the end of its tick leave unchanged -/

/-- The ADC sample writes neither the configuration, the flags, the cursor nor the LED (R123). -/
theorem adcSample_keeps {s u : State} (h : adcSample s = .next u) :
    u.cfg = s.cfg ∧ u.halted = s.halted ∧ u.started = s.started ∧ u.phase = s.phase ∧
      u.ticksInPhase = s.ticksInPhase ∧ u.ledOn = s.ledOn := by
  obtain ⟨es, p, a, l, hu, -⟩ := adcSample_frame h
  rw [hu]
  exact ⟨rfl, rfl, rfl, rfl, rfl, rfl⟩

theorem Pins.isDone_iff {p : Pins} : p.isDone = true ↔ ∃ k, p.adcDoneAfter = some k ∧ k < Config.adcPollMax := by
  unfold Pins.isDone
  cases p.adcDoneAfter <;> simp

/-- A sample starts a conversion, and an answer of done is in `raw_sample` afterwards (R123, R126). -/
theorem adcSample_triggers {s u : State} (hm : Memory.wf s.rawbuf = true) (h : adcSample s = .next u) :
    (∃ es, u.out = s.out ++ es ∧ PortEvent.adcStart ∈ es) ∧ (s.pins.isDone = true → memRead u = s.pins.adcResult) := by
  rcases adcSample_cases s with ⟨k, hk, hlt⟩ | hto
  · by_cases hr : s.pins.adcResult.toNat ≤ s.cfg.adcMax.toNat
    · rw [adcSample_done hk hlt hr] at h
      obtain rfl := Host.Outcome.next.inj h
      exact ⟨⟨_, rfl, by simp⟩, fun _ => memRead_memWrite hm _⟩
    · rw [adcSample_refused hk hlt (by omega)] at h
      cases h
  · rw [adcSample_timeout hto] at h
    obtain rfl := Host.Outcome.next.inj h
    refine ⟨⟨_, rfl, by simp⟩, fun hd => ?_⟩
    obtain ⟨k, hk, hlt⟩ := Pins.isDone_iff.mp hd
    have := hto k hk
    omega

/-- With the ADC in its contract a sample completes (R129, R227). -/
theorem adcSample_completes {s : State} (hc : AdcInContract s.cfg s.pins) : ∃ u, adcSample s = .next u := by
  rcases adcSample_cases s with ⟨k, hk, hlt⟩ | hto
  · exact ⟨_, adcSample_done hk hlt (hc (Pins.isDone_iff.mpr ⟨k, hk, hlt⟩))⟩
  · exact ⟨_, adcSample_timeout hto⟩

@[simp] theorem sampleTickEnd_cfg (s : State) : (sampleTickEnd s).cfg = s.cfg := by
  unfold sampleTickEnd; split <;> rfl

@[simp] theorem sampleTickEnd_halted (s : State) : (sampleTickEnd s).halted = s.halted := by
  unfold sampleTickEnd; split <;> rfl

@[simp] theorem sampleTickEnd_started (s : State) : (sampleTickEnd s).started = s.started := by
  unfold sampleTickEnd; split <;> rfl

@[simp] theorem sampleTickEnd_rawbuf (s : State) : (sampleTickEnd s).rawbuf = s.rawbuf := by
  unfold sampleTickEnd; split <;> rfl

@[simp] theorem sampleTickEnd_phase (s : State) :
    (sampleTickEnd s).phase = (nextCursor s.cfg s.phase s.ticksInPhase).1 := by
  unfold sampleTickEnd; split <;> rfl

@[simp] theorem sampleTickEnd_ticksInPhase (s : State) :
    (sampleTickEnd s).ticksInPhase = (nextCursor s.cfg s.phase s.ticksInPhase).2 := by
  unfold sampleTickEnd; split <;> rfl

theorem sampleTickEnd_ledOn (s : State) :
    (sampleTickEnd s).ledOn = if lastTickOfPhase s then false else s.ledOn := by
  unfold sampleTickEnd; split <;> rfl

theorem sampleTickEnd_out (s : State) :
    (sampleTickEnd s).out = s.out ++ if lastTickOfPhase s then [.ledClr] else [] := by
  unfold sampleTickEnd; split <;> simp

/-! ### What an operation leaves unchanged, and that it completes -/

/-- A tick moves the cursor by one where the block runs, and leaves the configuration and the flags (R120, R128). -/
theorem execTick_frame {s t : State} (h : execTick s = .next t) :
    t.cfg = s.cfg ∧ t.halted = s.halted ∧ t.started = s.started ∧
      (s.halted = false → (t.phase, t.ticksInPhase) = nextCursor s.cfg s.phase s.ticksInPhase) := by
  rcases execTick_cases h with ⟨hh, rfl⟩ | ⟨_, _, rfl⟩ | ⟨_, _, _, u, hu, rfl⟩ | ⟨_, _, _, rfl⟩ | ⟨_, _, rfl⟩
  · exact ⟨rfl, rfl, rfl, fun hr => by rw [hh] at hr; cases hr⟩
  · exact ⟨rfl, rfl, rfl, fun _ => rfl⟩
  · obtain ⟨hcfg, hhalt, hstart, hphase, hticks, -⟩ := adcSample_keeps hu
    simp [hcfg, hhalt, hstart, hphase, hticks]
  · simp
  · exact ⟨rfl, rfl, rfl, fun _ => rfl⟩

/-- Only `RESET` writes the configuration and the flags, and only it and `TICK` the cursor (10_state section 1). -/
theorem exec_frame {i : Instr} {s t : State} (hr : i ≠ .reset) (h : exec i s = .next t) :
    t.cfg = s.cfg ∧ t.halted = s.halted ∧ t.started = s.started ∧
      (i ≠ .tick → t.phase = s.phase ∧ t.ticksInPhase = s.ticksInPhase) := by
  cases i with
  | reset => exact absurd rfl hr
  | tick =>
    obtain ⟨hcfg, hhalt, hstart, -⟩ := execTick_frame h
    exact ⟨hcfg, hhalt, hstart, fun ht => absurd rfl ht⟩
  | idle | rdraw | take =>
    obtain rfl := Host.Outcome.next.inj h
    exact ⟨rfl, rfl, rfl, fun _ => ⟨rfl, rfl⟩⟩
  | adcRead =>
    rcases unlessHalted_eq_next h with ⟨_, rfl⟩ | ⟨_, h⟩
    · exact ⟨rfl, rfl, rfl, fun _ => ⟨rfl, rfl⟩⟩
    · obtain ⟨-, rfl⟩ := adcRead_cases h
      exact ⟨rfl, rfl, rfl, fun _ => ⟨rfl, rfl⟩⟩
  | meas | r2v | updb | v2d | wrraw | adcSel | adcStart | adcPoll | ledClr | ledSet =>
    rcases unlessHalted_eq_next h with ⟨_, rfl⟩ | ⟨_, h⟩
    · exact ⟨rfl, rfl, rfl, fun _ => ⟨rfl, rfl⟩⟩
    · obtain rfl := Host.Outcome.next.inj h
      exact ⟨rfl, rfl, rfl, fun _ => ⟨rfl, rfl⟩⟩

/-- Of the external operations only `RESET` and `TICK` write the LED (10_state section 1). -/
theorem ledOn_exec_external {i : Instr} {s t : State} (hi : i.isExternal = true) (hr : i ≠ .reset) (hk : i ≠ .tick)
    (h : exec i s = .next t) : t.ledOn = s.ledOn := by
  cases i with
  | reset => exact absurd rfl hr
  | tick => exact absurd rfl hk
  | idle | rdraw | take => obtain rfl := Host.Outcome.next.inj h; rfl
  | meas =>
    rcases unlessHalted_eq_next h with ⟨_, rfl⟩ | ⟨_, h⟩
    · rfl
    · obtain rfl := Host.Outcome.next.inj h; rfl
  | r2v | updb | v2d | wrraw | adcSel | adcStart | adcPoll | adcRead | ledClr | ledSet => cases hi

/-- `RESET` as a record: the registers it writes, then what validation settles (R195). -/
theorem execReset_eq (s : State) :
    exec .reset s = .next
      { resetRegisters (resetOperand s) s with
        cfgErr := validate (resetOperand s), halted := decide (validate (resetOperand s) ≠ 0) } :=
  congrArg Host.Outcome.next (settleValidation_eq _ _)

/-- In a run that has started or starts with this operation, a run has started afterwards (R42). -/
theorem exec_started {i : Instr} {s t : State} (hs : s.started = true ∨ i = .reset) (h : exec i s = .next t) :
    t.started = true := by
  by_cases hi : i = .reset
  · subst hi
    rw [execReset_eq] at h
    obtain rfl := Host.Outcome.next.inj h
    rfl
  · obtain ⟨-, -, hstart, -⟩ := exec_frame hi h
    exact hstart.trans (hs.resolve_right hi)

/-- R227: a `TICK` completes with the ADC in its contract. -/
theorem execTick_completes {s : State} (hc : AdcInContract s.cfg s.pins) : ∃ t, execTick s = .next t := by
  cases hh : s.halted with
  | true => exact ⟨s, unlessHalted_halted hh _⟩
  | false =>
    cases hp : s.phase with
    | ledOnSettle => exact ⟨_, execTick_settle hh hp⟩
    | ledOff => exact ⟨_, execTick_off hh hp⟩
    | ledOnSample =>
      by_cases hz : s.ticksInPhase = 0
      · obtain ⟨u, hu⟩ := adcSample_completes hc
        exact ⟨sampleTickEnd u, by rw [execTick_sampling hh hp hz, hu, andThen_next]⟩
      · exact ⟨_, execTick_later hh hp hz⟩

/-- R227: every external operation completes, a `TICK` with the ADC in its contract. -/
theorem exec_external_completes {i : Instr} {s : State} (hi : i.isExternal = true)
    (hc : i = .tick → AdcInContract s.cfg s.pins) : ∃ t, exec i s = .next t := by
  cases i with
  | tick => exact execTick_completes (hc rfl)
  | meas => exact unlessHalted_next_completes s _
  | idle | rdraw | take | reset => exact ⟨_, rfl⟩
  | r2v | updb | v2d | wrraw | adcSel | adcStart | adcPoll | adcRead | ledClr | ledSet => cases hi

/-! ### The cursor's progress -/

/-- A configuration has no cause bit exactly when every check passes (R200, R211). -/
theorem validate_eq_zero_iff (c : Cfg) :
    validate c = 0 ↔ errSlopeZero c = false ∧ errAdcMaxZero c = false ∧ errPeriod c = false ∧ errPhaseZero c = false ∧
      errSampleZero c = false := by
  have bits : ∀ a b c d e : Bool,
      BitVec.ofBool a ++ BitVec.ofBool b ++ BitVec.ofBool c ++ BitVec.ofBool d ++ BitVec.ofBool e = (0 : BitVec 5) ↔
        a = false ∧ b = false ∧ c = false ∧ d = false ∧ e = false := by decide
  exact bits _ _ _ _ _

theorem toNat_pos_of_ne_zero {w : Nat} {x : BitVec w} (h : x ≠ 0) : 0 < x.toNat :=
  Nat.pos_of_ne_zero fun h0 => h (BitVec.eq_of_toNat_eq (by simpa using h0))

/-- An accepted configuration bounds every phase by at least one tick (R31). -/
theorem bound_pos_of_valid {c : Cfg} (h : validate c = 0) (p : Phase) : 0 < (bound c p).toNat := by
  obtain ⟨-, -, -, hphase, hsample⟩ := (validate_eq_zero_iff c).mp h
  simp only [errPhaseZero, errSampleZero, Bool.or_eq_false_iff, beq_eq_false_iff_ne] at hphase hsample
  cases p with
  | ledOnSettle => exact toNat_pos_of_ne_zero hphase.1
  | ledOnSample => exact toNat_pos_of_ne_zero hsample
  | ledOff => exact toNat_pos_of_ne_zero hphase.2

theorem adcMax_pos_of_valid {c : Cfg} (h : validate c = 0) : 1 ≤ c.adcMax.toNat := by
  obtain ⟨-, hadc, -⟩ := (validate_eq_zero_iff c).mp h
  exact toNat_pos_of_ne_zero (beq_eq_false_iff_ne.mp hadc)

/-- A counter below a bound counts on without wrapping (R172). -/
theorem count_succ_toNat {t b : Count} (h : t.toNat < b.toNat) : (t + 1).toNat = t.toNat + 1 := by
  have hb := b.isLt
  rw [BitVec.toNat_add]
  exact Nat.mod_eq_of_lt (by show t.toNat + 1 < 2 ^ 16; omega)

theorem count_succ_ne_zero {t b : Count} (h : t.toNat < b.toNat) : t + 1 ≠ 0 := fun e => by
  have hs := count_succ_toNat h
  rw [e] at hs
  exact absurd hs (Nat.succ_ne_zero _).symm

/-- The cursor stays below its phase's bound (R22). -/
theorem nextCursor_lt_bound {c : Cfg} {p : Phase} {t : Count} (hb : ∀ q, 0 < (bound c q).toNat)
    (h : t.toNat < (bound c p).toNat) :
    (nextCursor c p t).2.toNat < (bound c (nextCursor c p t).1).toNat := by
  have hs := count_succ_toNat h
  rw [nextCursor_eq]
  split
  · exact hb _
  · show (t + 1).toNat < (bound c p).toNat
    omega

/-- How many ticks come before the next sampling tick, from a cursor below its bound (R125, R126). -/
def ticksToSample (c : Cfg) (p : Phase) (t : Count) : Nat :=
  match p with
  | .ledOnSettle => c.settleTicks.toNat - t.toNat
  | .ledOnSample => if t = 0 then 0 else c.sampleTicks.toNat - t.toNat + c.offTicks.toNat + c.settleTicks.toNat
  | .ledOff => c.offTicks.toNat - t.toNat + c.settleTicks.toNat

/-- Only the sampling tick's own cursor has no tick before it. -/
theorem cursor_of_ticksToSample_eq_zero {c : Cfg} {p : Phase} {t : Count} (h : t.toNat < (bound c p).toNat)
    (hz : ticksToSample c p t = 0) : p = .ledOnSample ∧ t = 0 := by
  cases p with
  | ledOnSettle => simp only [ticksToSample, bound] at h hz; omega
  | ledOff => simp only [ticksToSample, bound] at h hz; omega
  | ledOnSample =>
    refine ⟨rfl, ?_⟩
    by_contra ht
    simp only [ticksToSample, bound, if_neg ht] at h hz
    omega

/-- Every other tick is one less before the sampling tick. -/
theorem ticksToSample_nextCursor {c : Cfg} {p : Phase} {t : Count} (h : t.toNat < (bound c p).toNat)
    (hz : ticksToSample c p t ≠ 0) :
    ticksToSample c (nextCursor c p t).1 (nextCursor c p t).2 + 1 = ticksToSample c p t := by
  have hs := count_succ_toNat h
  have hs0 := count_succ_ne_zero h
  have h0 : (0 : Count).toNat = 0 := rfl
  have ht : p = .ledOnSample → t ≠ 0 := fun hp ht => hz (by rw [hp, ht]; rfl)
  by_cases hl : t.toNat + 1 = (bound c p).toNat
  · rw [nextCursor_eq, if_pos hl]
    cases p with
    | ledOnSettle => simp only [ticksToSample, bound, Phase.next, if_true] at hl ⊢; omega
    | ledOnSample => simp only [ticksToSample, bound, Phase.next, if_neg (ht rfl), h0] at hl ⊢; omega
    | ledOff => simp only [ticksToSample, bound, Phase.next, h0] at hl ⊢; omega
  · rw [nextCursor_eq, if_neg hl]
    cases p with
    | ledOnSettle => simp only [ticksToSample, bound] at h ⊢; omega
    | ledOnSample => simp only [ticksToSample, bound, if_neg hs0, if_neg (ht rfl)] at h ⊢; omega
    | ledOff => simp only [ticksToSample, bound] at h ⊢; omega

/-! ### The invariant of a running block -/

/-- What `Inv` says of a block that is not halted, without the conditions. -/
structure RunningInv (s : State) : Prop where
  running : s.halted = false
  valid : validate s.cfg = 0
  noCause : s.cfgErr = 0
  memory : Memory.wf s.rawbuf = true
  cursor : s.ticksInPhase.toNat < (bound s.cfg s.phase).toNat
  raw : (memRead s).toNat ≤ s.cfg.adcMax.toNat
  measRaw : s.measRaw.toNat ≤ s.cfg.adcMax.toNat
  readAnswer : s.lat.readAnswer.toNat ≤ s.cfg.adcMax.toNat
  rawOut : s.lat.rawOut.toNat ≤ s.cfg.adcMax.toNat
  baseline : s.baseline.toNat ≤ s.cfg.base0Fx.toNat
  voltage : s.measVoltage = r2v s.cfg s.measRaw
  density : s.measDensity.toNat ≤ s.measVoltage.toNat * s.cfg.slopeFx.toNat

theorem Inv.runningInv {s : State} (h : Inv s) (hs : s.started = true) (hr : s.halted = false) : RunningInv s := by
  obtain ⟨hcause, hhalt⟩ := h.fault hs
  obtain ⟨hraw, hmeas, hread, hout⟩ := h.contract hs hr
  obtain ⟨hvolt, hdens⟩ := h.meas hs hr
  have hnone : s.cfgErr = 0 := by
    by_contra hne
    rw [hhalt.mpr hne] at hr
    cases hr
  exact ⟨hr, hcause ▸ hnone, hnone, h.memory, h.cursor hs hr, hraw, hmeas, hread, hout, h.baseline hs, hvolt, hdens⟩

theorem RunningInv.inv {s : State} (h : RunningInv s) : Inv s where
  memory := h.memory
  cursor _ _ := h.cursor
  fault _ := ⟨h.noCause.trans h.valid.symm, by simp [h.running, h.noCause]⟩
  contract _ _ := ⟨h.raw, h.measRaw, h.readAnswer, h.rawOut⟩
  baseline _ := h.baseline
  meas _ _ := ⟨h.voltage, h.density⟩
  halted _ hh := by rw [h.running] at hh; cases hh

/-- The ports are no part of the invariant. -/
theorem Inv.withPins {s : State} (h : Inv s) (p : Pins) : Inv { s with pins := p } := { h with }

theorem RunningInv.withPins {s : State} (h : RunningInv s) (p : Pins) : RunningInv { s with pins := p } := { h with }

theorem RunningInv.ledSet {s : State} (h : RunningInv s) : RunningInv (ledSet s) := { h with }

theorem RunningInv.ledClr {s : State} (h : RunningInv s) : RunningInv (ledClr s) := { h with }

theorem RunningInv.advanceCursor {s : State} (h : RunningInv s) : RunningInv (advanceCursor s) :=
  { h with cursor := nextCursor_lt_bound (bound_pos_of_valid h.valid) h.cursor }

theorem RunningInv.sampleTickEnd {s : State} (h : RunningInv s) : RunningInv (sampleTickEnd s) := by
  unfold Machine.sampleTickEnd
  split
  · exact h.ledClr.advanceCursor
  · exact h.advanceCursor

/-- Storing a raw code within the contract. -/
theorem RunningInv.memWrite {s : State} {v : RawCode} (h : RunningInv s) (hv : v.toNat ≤ s.cfg.adcMax.toNat) :
    RunningInv (memWrite v s) :=
  { h with
    memory := (Memory.write_zero h.memory v).1
    raw := by rw [memRead_memWrite h.memory]; exact hv }

theorem RunningInv.adcRead {s t : State} (h : RunningInv s) (ht : adcRead s = .next t) : RunningInv t := by
  obtain ⟨hr, rfl⟩ := adcRead_cases ht
  exact { h with readAnswer := hr }

theorem RunningInv.adcSample {s u : State} (h : RunningInv s) (hu : adcSample s = .next u) : RunningInv u := by
  obtain ⟨es, p, a, l, hu, ⟨hbuf, hread⟩ | ⟨hr, hread, hbuf⟩⟩ := adcSample_frame hu
  · rw [hu, hbuf, hread]
    exact { h with }
  · rw [hu, hbuf, hread]
    exact { h.memWrite hr with readAnswer := hr }

theorem RunningInv.execTick {s t : State} (h : RunningInv s) (ht : execTick s = .next t) : RunningInv t := by
  rcases execTick_cases ht with ⟨_, rfl⟩ | ⟨_, _, rfl⟩ | ⟨_, _, _, u, hu, rfl⟩ | ⟨_, _, _, rfl⟩ | ⟨_, _, rfl⟩
  · exact h
  · exact h.ledSet.advanceCursor
  · exact (h.adcSample hu).sampleTickEnd
  · exact h.sampleTickEnd
  · exact h.advanceCursor

theorem updatedBaseline_le (b v : Volt) : (updatedBaseline b v).toNat ≤ b.toNat := by
  rw [updatedBaseline_toNat]
  exact Nat.min_le_left _ _

theorem v2d_le (b : Volt) (slope : Slope) (v : Volt) : (v2d b slope v).toNat ≤ v.toNat * slope.toNat := by
  rw [v2d_toNat]
  exact Nat.mul_le_mul_right _ (Nat.sub_le _ _)

theorem RunningInv.takeMeasurement {s : State} (h : RunningInv s) : RunningInv (takeMeasurement s) :=
  { h with
    measRaw := h.raw
    baseline := (updatedBaseline_le _ _).trans h.baseline
    voltage := rfl
    density := v2d_le _ _ _ }

/-- Every operation but `RESET` keeps the invariant of a running block. -/
theorem RunningInv.exec {i : Instr} {s t : State} (h : RunningInv s) (hi : i ≠ .reset) (ht : exec i s = .next t) :
    RunningInv t := by
  have guarded {u : State} (hu : unlessHalted s (.next u) = .next t) : t = u := eq_of_unlessHalted_running h.running hu
  cases i with
  | reset => exact absurd rfl hi
  | tick => exact h.execTick ht
  | idle => cases ht; exact h
  | rdraw => cases ht; exact { h with rawOut := h.raw }
  | take => cases ht; exact { h with }
  | meas => rw [guarded ht]; exact h.takeMeasurement
  | updb => rw [guarded ht]; exact { h with baseline := (updatedBaseline_le _ _).trans h.baseline }
  | wrraw => rw [guarded ht]; exact h.memWrite h.readAnswer
  | adcRead => exact h.adcRead ((unlessHalted_running h.running _).symm.trans ht)
  | ledClr => rw [guarded ht]; exact h.ledClr
  | ledSet => rw [guarded ht]; exact h.ledSet
  | r2v | v2d | adcSel | adcStart | adcPoll => rw [guarded ht]; exact { h with }

/-! ### Every operation keeps the invariants -/

/-- R28, R214: in a halted block only the reads do anything, and they keep the invariant. -/
theorem Inv.exec_halted {i : Instr} {s t : State} (h : Inv s) (hs : s.started = true) (hh : s.halted = true)
    (hi : i ≠ .reset) (ht : exec i s = .next t) : Inv t := by
  have notRunning {P : Prop} (hr : s.halted = false) : P := by rw [hh] at hr; cases hr
  cases i with
  | reset => exact absurd rfl hi
  | idle => cases ht; exact h
  | rdraw => cases ht; exact { h with contract := fun _ hr => notRunning hr }
  | take =>
    cases ht
    obtain ⟨hphase, hticks, hled, hmem, hbase, hraw, hvolt, hdens, hseq, -⟩ := h.halted hs hh
    exact { h with halted := fun _ _ => ⟨hphase, hticks, hled, hmem, hbase, hraw, hvolt, hdens, hseq, rfl⟩ }
  | tick | meas | r2v | updb | v2d | wrraw | adcSel | adcStart | adcPoll | adcRead | ledClr | ledSet =>
    rw [eq_of_unlessHalted_halted hh ht]
    exact h

theorem r2v_zero {c : Cfg} (h : 1 ≤ c.adcMax.toNat) : r2v c 0 = 0 := by
  apply BitVec.eq_of_toNat_eq
  rw [r2v_toNat (Nat.zero_le _) h]
  simp

/-- A `RESET` establishes the invariant from any state with a canonical buffer (R195). -/
theorem inv_of_reset {s t : State} (hm : Memory.wf s.rawbuf = true) (ht : exec .reset s = .next t) : Inv t := by
  have hread := memRead_memWrite hm 0
  have hmem := (Memory.write_zero hm 0).1
  rw [execReset_eq] at ht
  obtain rfl := Host.Outcome.next.inj ht
  by_cases hv : validate (resetOperand s) = 0
  · refine RunningInv.inv ⟨decide_eq_false (not_not.mpr hv), hv, hv, hmem, bound_pos_of_valid hv _, ?_, Nat.zero_le _,
      Nat.zero_le _, Nat.zero_le _, le_rfl, (r2v_zero (adcMax_pos_of_valid hv)).symm, Nat.zero_le _⟩
    show (memRead (memWrite 0 s)).toNat ≤ _
    rw [hread]
    exact Nat.zero_le _
  · have notRunning {P : Prop} (hr : decide (validate (resetOperand s) ≠ 0) = false) : P :=
      absurd hv (of_decide_eq_false hr)
    exact
      { memory := hmem
        cursor := fun _ hr => notRunning hr
        fault := fun _ => ⟨rfl, decide_eq_true_iff⟩
        contract := fun _ hr => notRunning hr
        baseline := fun _ => le_rfl
        meas := fun _ hr => notRunning hr
        halted := fun _ _ => ⟨rfl, rfl, rfl, hread, rfl, rfl, rfl, rfl, rfl, rfl⟩ }

/-- Every operation keeps the invariant in a run that has started, or starts with it. -/
theorem Inv.exec {i : Instr} {s t : State} (h : Inv s) (hs : s.started = true ∨ i = .reset) (ht : exec i s = .next t) :
    Inv t := by
  by_cases hi : i = .reset
  · subst hi
    exact inv_of_reset h.memory ht
  · have hs := hs.resolve_right hi
    cases hh : s.halted with
    | true => exact h.exec_halted hs hh hi ht
    | false => exact ((h.runningInv hs hh).exec hi ht).inv

/-- After a `RESET` the LED is off, at the cursor of a cycle's start. -/
theorem ledInv_of_reset {s t : State} (ht : exec .reset s = .next t) : LedInv t := by
  rw [execReset_eq] at ht
  obtain rfl := Host.Outcome.next.inj ht
  exact fun _ => rfl

/-- R127 as the cursor moves on: on from the first tick of `LedOnSettle`, off with the last of `LedOnSample`. -/
theorem ledExpected_nextCursor {c : Cfg} {p : Phase} {t : Count} (h : t.toNat < (bound c p).toNat) :
    ledExpected (nextCursor c p t).1 (nextCursor c p t).2 =
      (p == .ledOnSettle || p == .ledOnSample && !isLastTick c p t) := by
  have hon : (t + 1 != 0) = true := bne_iff_ne.mpr (count_succ_ne_zero h)
  unfold nextCursor
  cases hl : isLastTick c p t with
  | true => cases p <;> rfl
  | false =>
    cases p with
    | ledOnSettle => exact hon
    | ledOnSample | ledOff => rfl

/-- R127: a `TICK` of a running block keeps the LED with the cursor. -/
theorem ledOn_execTick {s t : State} (h : RunningInv s) (hl : s.ledOn = ledExpected s.phase s.ticksInPhase)
    (ht : execTick s = .next t) : t.ledOn = ledExpected t.phase t.ticksInPhase := by
  obtain ⟨-, -, -, hcur⟩ := execTick_frame ht
  have hnext := ledExpected_nextCursor h.cursor
  rw [← hcur h.running] at hnext
  rw [hnext]
  rcases execTick_cases ht with ⟨hh, _⟩ | ⟨_, hp, rfl⟩ | ⟨_, hp, _, u, hu, rfl⟩ | ⟨_, hp, _, rfl⟩ | ⟨_, hp, rfl⟩
  · rw [h.running] at hh; cases hh
  · rw [hp]; rfl
  · obtain ⟨hcfg, -, -, hphase, hticks, hled⟩ := adcSample_keeps hu
    rw [sampleTickEnd_ledOn, lastTickOfPhase, hcfg, hphase, hticks, hled, hl, hp]
    cases isLastTick s.cfg .ledOnSample s.ticksInPhase <;> rfl
  · rw [sampleTickEnd_ledOn, lastTickOfPhase, hl, hp]
    cases isLastTick s.cfg .ledOnSample s.ticksInPhase <;> rfl
  · rw [advanceCursor_ledOn, hl, hp]; rfl

/-- R127: every external operation keeps the LED with the cursor. -/
theorem LedInv.exec {i : Instr} {s t : State} (hl : LedInv s) (h : Inv s) (hs : s.started = true ∨ i = .reset)
    (he : i.isExternal = true) (ht : exec i s = .next t) : LedInv t := by
  by_cases hi : i = .reset
  · subst hi
    exact ledInv_of_reset ht
  replace hs := hs.resolve_right hi
  intro _
  by_cases hk : i = .tick
  · subst hk
    cases hh : s.halted with
    | true =>
      rw [eq_of_unlessHalted_halted hh ht]
      exact hl hs
    | false => exact ledOn_execTick (h.runningInv hs hh) (hl hs) ht
  · obtain ⟨-, -, -, hcur⟩ := exec_frame hi ht
    obtain ⟨hphase, hticks⟩ := hcur hk
    rw [ledOn_exec_external he hi hk ht, hphase, hticks]
    exact hl hs

/-! ### Runs -/

theorem accept_opInput_external {b : Bool} {p : Presentation} {i : Instr} (hv : p.via = .opInput)
    (h : accept b p = .ok i) : i.isExternal = true := by
  obtain ⟨-, hw, -⟩ := accept_eq_ok.mp h
  rw [hv] at hw
  exact hw

theorem accept_encode {b : Bool} {p : Presentation} {i j : Instr} (hw : p.word = encode j) (h : accept b p = .ok i) :
    i = j := by
  obtain ⟨hdec, -⟩ := accept_eq_ok.mp h
  rw [hw, decode_encode] at hdec
  exact (Except.ok.inj hdec).symm

theorem accept_word_eq {b : Bool} {p : Presentation} {i : Instr} (h : accept b p = .ok i) : p.word = encode i :=
  (encode_of_decode (accept_eq_ok.mp h).1).symm

/-- After any step of an environment a run has started (R42). -/
theorem stepUnder_started {p : Presentation} {s t : State} (h : stepUnder p s = .next t) : t.started = true := by
  obtain ⟨i, hacc, ht⟩ := stepUnder_eq_next h
  obtain ⟨-, -, hs⟩ := accept_eq_ok.mp hacc
  exact exec_started (s := { s with pins := p.pins }) hs ht

theorem Inv.stepUnder {p : Presentation} {s t : State} (h : Inv s) (ht : stepUnder p s = .next t) : Inv t := by
  obtain ⟨i, hacc, ht⟩ := stepUnder_eq_next ht
  obtain ⟨-, -, hs⟩ := accept_eq_ok.mp hacc
  exact (h.withPins p.pins).exec hs ht

theorem LedInv.stepUnder {p : Presentation} {s t : State} (hl : LedInv s) (h : Inv s) (hv : p.via = .opInput)
    (ht : stepUnder p s = .next t) : LedInv t := by
  obtain ⟨i, hacc, ht⟩ := stepUnder_eq_next ht
  obtain ⟨-, -, hs⟩ := accept_eq_ok.mp hacc
  exact LedInv.exec (s := { s with pins := p.pins }) hl (h.withPins p.pins) hs (accept_opInput_external hv hacc) ht

namespace IsRun

variable {len : ℕ∞} {env : Environment} {σ : Nat → State} {m : Nat}

/-- R13: the first `m` steps of a run are a run. -/
theorem of_le (h : IsRun len env σ) (hm : (m : ℕ∞) ≤ len) : IsRun m env σ where
  opInput k hk := h.opInput k (hk.trans_le hm)
  first h0 := h.first (h0.trans_le hm)
  steps k hk := h.steps k (hk.trans_le hm)

/-- The operations of a run, as a schedule before any other, take the machine to the same state (log 6). -/
theorem stepN_eq (h : IsRun m env σ) (rest : List Presentation) :
    stepN m ((σ 0).withProgram ((List.range m).map env ++ rest)) = .next ((σ m).withProgram rest) := by
  induction m generalizing rest with
  | zero => rfl
  | succ m ih =>
    have hstep : stepUnder (env m) (σ m) = .next (σ (m + 1)) := h.steps m (Nat.cast_lt.mpr m.lt_succ_self)
    have hsched : (List.range (m + 1)).map env ++ rest = (List.range m).map env ++ env m :: rest := by
      simp [List.range_succ]
    rw [hsched, stepN_succ_last, ih (h.of_le (Nat.cast_le.mpr m.le_succ)), andThen_next, step_withProgram_cons, hstep,
      withSchedule_next]

/-- The first step of a run is a `RESET`, and establishes both invariants. -/
theorem inv_one (h : IsRun len env σ) (hm : Memory.wf (σ 0).rawbuf = true) (hlen : 1 ≤ len) :
    Inv (σ 1) ∧ LedInv (σ 1) := by
  have h0 : ((0 : Nat) : ℕ∞) < len := Order.one_le_iff_pos.mp hlen
  obtain ⟨i, hacc, ht⟩ := stepUnder_eq_next (h.steps 0 h0)
  obtain rfl := accept_encode (h.first h0) hacc
  exact ⟨inv_of_reset (by exact hm) ht, ledInv_of_reset ht⟩

/-- After its first operation a run has started, and both invariants hold at every step. -/
theorem inv (h : IsRun len env σ) (hm : Memory.wf (σ 0).rawbuf = true) (h1 : 1 ≤ m) (hlen : (m : ℕ∞) ≤ len) :
    (σ m).started = true ∧ Inv (σ m) ∧ LedInv (σ m) := by
  have hstep {k : Nat} (hk : k < m) : stepUnder (env k) (σ k) = .next (σ (k + 1)) :=
    h.steps k ((Nat.cast_lt.mpr hk).trans_le hlen)
  have hboth : ∀ k, 1 ≤ k → k ≤ m → Inv (σ k) ∧ LedInv (σ k) := by
    intro k hk
    induction k, hk using Nat.le_induction with
    | base => exact fun hk => h.inv_one hm ((Nat.cast_le.mpr hk).trans hlen)
    | succ k _ ih =>
      intro hk
      obtain ⟨hinv, hled⟩ := ih (by omega)
      have hvia := h.opInput k ((Nat.cast_lt.mpr hk).trans_le hlen)
      exact ⟨hinv.stepUnder (hstep hk), hled.stepUnder hinv hvia (hstep hk)⟩
  obtain ⟨k, rfl⟩ := Nat.exists_eq_add_of_le' h1
  exact ⟨stepUnder_started (hstep k.lt_succ_self), hboth _ h1 le_rfl⟩

end IsRun

/-- Settles O60: by induction on the number of steps, the last one split off; a `RESET` establishes the invariants and
every step keeps them. -/
theorem everyPrefixOfARunIsARun : Obligations.EveryPrefixOfARunIsARun := by
  intro len env σ m hrun hmem hm
  have hfirst := hrun.of_le hm
  exact ⟨hfirst, hfirst.stepN_eq, fun h1 => hrun.inv hmem h1 hm⟩

/-! ### Every endless environment has an endless run -/

/-- With the ADC in its contract an external operation on the `op` input takes a step, once a run has started or as the
`RESET` that starts it (R14, R227). -/
theorem stepUnder_completes {p : Presentation} {s : State} {i : Instr} (hv : p.via = .opInput)
    (hdec : decode p.word = .ok i) (hext : i.isExternal = true) (hs : s.started = true ∨ i = .reset)
    (hc : i = .tick → AdcInContract s.cfg p.pins) : ∃ t, stepUnder p s = .next t := by
  have hacc : accept s.started p = .ok i := accept_eq_ok.mpr ⟨hdec, by rw [hv]; exact hext, hs⟩
  rw [stepUnder_of_accept hacc]
  exact exec_external_completes hext hc

/-- Settles O58: each of the environment's operations completes, so the states that its first `k` steps reach are a run. -/
theorem everyEnvironmentHasAnEndlessRun : Obligations.EveryEnvironmentHasAnEndlessRun := by
  intro env s hext hfirst hadc
  have hreach : ∀ k, ∃ t, stepsUnder env s k = .next t ∧ (1 ≤ k → t.started = true) := by
    intro k
    induction k with
    | zero => exact ⟨s, rfl, fun h => absurd h (by decide)⟩
    | succ k ih =>
      obtain ⟨t, ht, hstart⟩ := ih
      obtain ⟨hvia, i, hdec, hi⟩ := hext k
      have hfirst : k = 0 → i = .reset := by
        rintro rfl
        rw [hfirst, decode_encode] at hdec
        exact (Except.ok.inj hdec).symm
      obtain ⟨u, hu⟩ : ∃ u, stepUnder (env k) t = .next u := by
        refine stepUnder_completes hvia hdec hi ?_ fun htick => hadc k t ?_ ht
        · rcases Nat.eq_zero_or_pos k with hk | hk
          · exact .inr (hfirst hk)
          · exact .inl (hstart hk)
        · refine Nat.one_le_iff_ne_zero.mpr fun hk => ?_
          rw [hfirst hk] at htick
          cases htick
      exact ⟨u, by rw [stepsUnder, ht, andThen_next, hu], fun _ => stepUnder_started hu⟩
  choose σ hσ _ using hreach
  have hstep (k : Nat) : stepUnder (env k) (σ k) = .next (σ (k + 1)) := by
    have h := hσ (k + 1)
    rwa [stepsUnder, hσ k, andThen_next] at h
  exact ⟨σ, (Host.Outcome.next.inj (hσ 0)).symm, fun k _ => (hext k).1, fun _ => hfirst, fun k _ => hstep k⟩

/-! ### Under a fair tick source the block samples again and again -/

/-- The ticks before the next sampling tick, at a state. -/
def State.distance (s : State) : Nat := ticksToSample s.cfg s.phase s.ticksInPhase

/-- A measure that each of infinitely many events lowers unless it is 0, and that nothing else changes, is 0 at one of the
events from any point on. -/
theorem exists_event_at_zero {f : Nat → Nat} {event : Nat → Prop} {m : Nat} (hinf : ∀ j, ∃ k, j ≤ k ∧ event k)
    (hle : ∀ k, m ≤ k → ¬ event k → f (k + 1) = f k) (hlt : ∀ k, m ≤ k → event k → f k ≠ 0 → f (k + 1) < f k) :
    ∃ k, m ≤ k ∧ event k ∧ f k = 0 := by
  by_contra hnone
  have hpos (k : Nat) (hk : m ≤ k) (he : event k) : f k ≠ 0 := fun h0 => hnone ⟨k, hk, he, h0⟩
  have hanti {j k : Nat} (hj : m ≤ j) (hjk : j ≤ k) : f k ≤ f j := by
    induction k, hjk using Nat.le_induction with
    | base => exact le_rfl
    | succ k hjk ih =>
      by_cases he : event k
      · exact (hlt k (hj.trans hjk) he (hpos k (hj.trans hjk) he)).le.trans ih
      · exact (hle k (hj.trans hjk) he).le.trans ih
  have hdrop (v : Nat) : ∃ j, m ≤ j ∧ f j + v ≤ f m := by
    induction v with
    | zero => exact ⟨m, le_rfl, le_rfl⟩
    | succ v ih =>
      obtain ⟨j, hj, hv⟩ := ih
      obtain ⟨k, hjk, he⟩ := hinf j
      have hk := hj.trans hjk
      have h1 := hanti hj hjk
      have h2 := hlt k hk he (hpos k hk he)
      exact ⟨k + 1, hk.trans k.le_succ, by omega⟩
  obtain ⟨j, -, hj⟩ := hdrop (f m + 1)
  omega

/-- A running `TICK` that does not sample comes one nearer to the next that does. -/
theorem distance_execTick {s t : State} (h : RunningInv s) (hz : s.distance ≠ 0) (ht : execTick s = .next t) :
    t.distance < s.distance := by
  obtain ⟨hcfg, -, -, hcur⟩ := execTick_frame ht
  have hcount : ticksToSample s.cfg t.phase t.ticksInPhase + 1 = s.distance := by
    have := ticksToSample_nextCursor h.cursor hz
    rwa [← hcur h.running] at this
  rw [State.distance, hcfg]
  omega

/-- R123, R126: a sampling tick triggers the ADC, and stores its answer where it is done. -/
theorem execTick_samples {s t : State} (h : RunningInv s) (hz : s.distance = 0) (ht : execTick s = .next t) :
    (∃ es, t.out = s.out ++ es ∧ PortEvent.adcStart ∈ es) ∧ (s.pins.isDone = true → memRead t = s.pins.adcResult) := by
  obtain ⟨hphase, hticks⟩ := cursor_of_ticksToSample_eq_zero h.cursor hz
  rw [execTick_sampling h.running hphase hticks] at ht
  obtain ⟨u, hu, ht⟩ := andThen_eq_next ht
  obtain rfl := Host.Outcome.next.inj ht
  obtain ⟨⟨es, hout, hmem⟩, hdone⟩ := adcSample_triggers h.memory hu
  refine ⟨⟨es ++ _, by rw [sampleTickEnd_out, hout, List.append_assoc], List.mem_append_left _ hmem⟩, fun hd => ?_⟩
  rw [memRead, sampleTickEnd_rawbuf]
  exact hdone hd

/-- What a step of an environment that presents `TICK` executes. -/
theorem execTick_of_stepUnder {p : Presentation} {s t : State} (hw : p.word = encode .tick)
    (h : stepUnder p s = .next t) : execTick { s with pins := p.pins } = .next t := by
  obtain ⟨i, hacc, ht⟩ := stepUnder_eq_next h
  obtain rfl := accept_encode hw hacc
  exact ht

/-- A step of anything but `RESET` keeps a running block running. -/
theorem RunningInv.stepUnder {p : Presentation} {s t : State} (h : RunningInv s) (hw : p.word ≠ encode .reset)
    (ht : stepUnder p s = .next t) : RunningInv t := by
  obtain ⟨i, hacc, ht⟩ := stepUnder_eq_next ht
  exact (h.withPins p.pins).exec (fun hi => hw (hi ▸ accept_word_eq hacc)) ht

/-- A step of neither `RESET` nor `TICK` leaves the cursor where it is. -/
theorem distance_stepUnder {p : Presentation} {s t : State} (hr : p.word ≠ encode .reset) (hk : p.word ≠ encode .tick)
    (ht : stepUnder p s = .next t) : t.distance = s.distance := by
  obtain ⟨i, hacc, ht⟩ := stepUnder_eq_next ht
  have hword := accept_word_eq hacc
  obtain ⟨hcfg, -, -, hcur⟩ := exec_frame (fun hi => hr (hi ▸ hword)) ht
  obtain ⟨hphase, hticks⟩ := hcur fun hi => hk (hi ▸ hword)
  rw [State.distance, State.distance, hcfg, hphase, hticks]

/-- Settles O59: the ticks before the next sampling tick are a measure that each tick lowers and no other step changes. -/
theorem everyCycleEventuallySamples : Obligations.EveryCycleEventuallySamples := by
  intro env σ n hrun hmem hfair h1 hnoreset hhalt m hnm
  have hstep (k : Nat) : stepUnder (env k) (σ k) = .next (σ (k + 1)) := hrun.steps k (ENat.natCast_lt_top k)
  have hrunning (k : Nat) (hk : n ≤ k) : RunningInv (σ k) := by
    induction k, hk using Nat.le_induction with
    | base =>
      obtain ⟨hstart, hinv, -⟩ := hrun.inv hmem h1 le_top
      exact hinv.runningInv hstart hhalt
    | succ k hk ih => exact ih.stepUnder (hnoreset k hk) (hstep k)
  have hpins (k : Nat) (hk : m ≤ k) := (hrunning k (hnm.trans hk)).withPins (env k).pins
  obtain ⟨k, hmk, htick, hz⟩ := exists_event_at_zero (f := fun k => (σ k).distance) (m := m) hfair
    (fun k hk hother => distance_stepUnder (hnoreset k (hnm.trans hk)) hother (hstep k))
    (fun k hk htick hz => distance_execTick (s := { σ k with pins := (env k).pins }) (hpins k hk) hz
      (execTick_of_stepUnder htick (hstep k)))
  exact ⟨k, hmk, htick, execTick_samples (hpins k hmk) hz (execTick_of_stepUnder htick (hstep k))⟩

/-! ### The density formula, and one step -/

/-- Settles O38: below the baseline both sides are 0, from it up the difference and the product are exact. -/
theorem densityIsTheDocumentsFormula : Obligations.DensityIsTheDocumentsFormula := by
  intro b v slope
  have hscale : (0 : ℚ) ≤ Config.vscale := vscale_pos.le
  rw [densityOf, voltsOf, voltsOf, slopeOf, v2d_toNat, ← sub_div, Nat.cast_mul]
  rcases Nat.le_total v.toNat b.toNat with h | h
  · have hneg : ((v.toNat : ℚ) - b.toNat) / Config.vscale ≤ 0 :=
      div_nonpos_of_nonpos_of_nonneg (sub_nonpos.mpr (Nat.cast_le.mpr h)) hscale
    rw [max_eq_left hneg, Nat.sub_eq_zero_of_le h]
    simp
  · have hpos : 0 ≤ ((v.toNat : ℚ) - b.toNat) / Config.vscale :=
      div_nonneg (sub_nonneg.mpr (Nat.cast_le.mpr h)) hscale
    rw [max_eq_right hpos, Nat.cast_sub h, mul_div_mul_comm]

/-- Settles O51: `accept` lets the presented operation through, and with nothing presented the operation is `IDLE`. -/
theorem stepExecutesThePresentedOperation : Obligations.StepExecutesThePresentedOperation := by
  constructor
  · intro s p ps i hprog hdec hwf hs
    have hacc : accept s.started p = .ok i := accept_eq_ok.mpr ⟨hdec, hwf, hs⟩
    rw [step, fetched, currentPresentation, hprog]
    simp only [hacc, List.tail_cons]
  · intro s hprog hs
    have hidle : accept s.started (currentPresentation s) = .ok .idle :=
      accept_eq_ok.mpr (by rw [currentPresentation, hprog]; exact ⟨rfl, rfl, .inl hs⟩)
    have hfetched : fetched s = s := by
      rw [fetched, currentPresentation, hprog, ← hprog]
      cases s; subst hprog; rfl
    rw [step, hidle, hfetched]
    rfl

end Sys2Proof.Machine

/-! The block's registers: what `RESET` leaves in them, which operations write and read each, and what every step keeps
(10_state). -/

namespace Sys2Proof.Machine

/-! ### Every step keeps the invariant -/

/-- The ports and the schedule, all that fetching changes, are no part of the invariant. -/
theorem Inv.fetched {s : State} (h : Inv s) : Inv (fetched s) := { h with }

/-- Settles O54: a step executes an accepted operation, and `Inv.exec` says that each keeps the invariant. -/
theorem stepKeepsTheInvariant : Obligations.StepKeepsTheInvariant := by
  intro s t h ht
  obtain ⟨i, hacc, hexec⟩ := step_eq_next ht
  obtain ⟨-, -, hstart⟩ := accept_eq_ok.mp hacc
  exact h.fetched.exec hstart hexec

/-! ### What `RESET` leaves -/

theorem one_le_toNat_iff {w : Nat} {x : BitVec w} : 1 ≤ x.toNat ↔ (x == 0) = false := by
  rw [beq_eq_false_iff_ne, Nat.one_le_iff_ne_zero]
  simp [← BitVec.toNat_inj]

/-- The period check's distance is the absolute difference (R200). -/
theorem periodDiff_cast (c : Cfg) :
    (periodDiff c : ℤ) =
      |((c.settleTicks.toNat + c.sampleTicks.toNat + c.offTicks.toNat) * c.tickNs.toNat : ℤ) - Config.periodReqNs| := by
  have hcycle : ((c.settleTicks.toNat + c.sampleTicks.toNat + c.offTicks.toNat) * c.tickNs.toNat : ℤ) = cycleNs c := by
    rw [cycleNs]; push_cast; rfl
  rw [hcycle, periodDiff]
  split
  · rename_i h
    rw [Nat.cast_sub h, abs_of_nonneg (by omega)]
  · rename_i h
    rw [Nat.cast_sub (by omega), abs_of_neg (by omega), neg_sub]

/-- R31, R200: the legal configurations are those without a cause. -/
theorem Cfg.legal_iff_validate {c : Cfg} : c.Legal ↔ validate c = 0 := by
  have hperiod : errPeriod c = false ↔ (periodDiff c : ℤ) ≤ Config.periodTolNs := by simp [errPeriod]
  rw [validate_eq_zero_iff, hperiod, periodDiff_cast]
  simp only [Cfg.Legal, one_le_toNat_iff, errSlopeZero, errAdcMaxZero, errPhaseZero, errSampleZero, Bool.or_eq_false_iff]
  tauto

/-- R23: the pin of an LED that is off stands at the inactive level. -/
theorem ledPin_of_off {s : State} (h : s.ledOn = false) : ledPin s = !s.cfg.ledActiveHigh := by
  rw [ledPin, h]
  cases s.cfg.ledActiveHigh <;> rfl

/-- `RESET` writes address 0 of the buffer and no other (R195). -/
theorem read_resetRegisters_of_ne {s : State} (hm : Memory.wf s.rawbuf = true) (c : Cfg) {a : Nat} (ha : a ≠ 0) :
    Memory.read (resetRegisters c s).rawbuf a = Memory.read s.rawbuf a :=
  ((Memory.write_zero hm 0).2 a).trans (if_neg ha)

theorem memRead_resetRegisters {s : State} (hm : Memory.wf s.rawbuf = true) (c : Cfg) :
    memRead (resetRegisters c s) = 0 := memRead_memWrite hm 0

/-- Settles O10: a legal configuration has no cause, so validation leaves no halt over `RESET`'s writes. -/
theorem validResetLeavesTheResetValues : Obligations.ValidResetLeavesTheResetValues := by
  intro s hm hlegal
  have hv : validate (resetOperand s) = 0 := Cfg.legal_iff_validate.mp hlegal
  exact ⟨_, execReset_eq s, rfl, rfl, rfl, memRead_resetRegisters hm _, rfl, rfl, rfl, rfl, rfl, rfl,
    decide_eq_false (not_not.mpr hv), hv, rfl, fun a ha => read_resetRegisters_of_ne hm _ ha, rfl, rfl, rfl, rfl, rfl,
    ledPin_of_off rfl⟩

/-- Settles O11: a configuration that is not legal has a cause, which validation latches with the halt. -/
theorem invalidResetHaltsWithItsCause : Obligations.InvalidResetHaltsWithItsCause := by
  intro s hm hlegal
  have hv : validate (resetOperand s) ≠ 0 := fun hv => hlegal (Cfg.legal_iff_validate.mpr hv)
  exact ⟨_, execReset_eq s, rfl, rfl, rfl, memRead_resetRegisters hm _, rfl, rfl, rfl, rfl, rfl, rfl,
    decide_eq_true hv, rfl, hv, rfl, fun a ha => read_resetRegisters_of_ne hm _ ha, rfl, rfl, rfl, rfl, rfl,
    ledPin_of_off rfl⟩

/-- Settles O13: `RESET` halts exactly on a cause, and the legal configurations are those without one. -/
theorem legalConfigurationsAreTheAcceptedOnes : Obligations.LegalConfigurationsAreTheAcceptedOnes := by
  intro s
  refine ⟨_, execReset_eq s, ?_⟩
  show decide (validate (resetOperand s) ≠ 0) = false ↔ (resetOperand s).Legal
  rw [decide_eq_false_iff_not, not_not, Cfg.legal_iff_validate]

/-- The reset state is what a `RESET` that presents `CFG_A` leaves, also in that state itself (log 1). -/
theorem exec_reset_reset : exec .reset State.reset = .next State.reset := congrArg Host.Outcome.next (by decide)

/-- Settles O9: the registers of any two states after a `RESET` that presents `CFG_A` agree but for the buffer, which
canonical form determines. -/
theorem resetStateIsTheScenarioReset : Obligations.ResetStateIsTheScenarioReset := by
  refine ⟨rfl, rfl, rfl, rfl, rfl, rfl, rfl, rfl, rfl, rfl, rfl, rfl, rfl, rfl, fun s hcfg hm => ?_⟩
  have hop : resetOperand s = Cfg.scenario := by rw [resetOperand, hcfg]; decide
  have hv : validate Cfg.scenario = 0 := by decide
  have hbuf : Memory.write s.rawbuf 0 0 = [] :=
    Memory.wf_ext (Memory.write_zero hm 0).1 rfl (memRead_memWrite hm 0)
  refine ⟨_, execReset_eq s, ?_⟩
  rw [hop]
  exact
    { phase := rfl, ticksInPhase := rfl, ledOn := rfl, rawbuf := hbuf, baseline := rfl, measRaw := rfl,
      measVoltage := rfl, measDensity := rfl, measSeq := rfl, ready := rfl,
      halted := decide_eq_false (not_not.mpr hv), cfgErr := hv, cfg := rfl }

/-- Settles O55: a `RESET` establishes both invariants, and the reset state is what one leaves. -/
theorem resetStateMeetsTheInvariant : Obligations.ResetStateMeetsTheInvariant :=
  ⟨inv_of_reset rfl exec_reset_reset, ledInv_of_reset exec_reset_reset⟩

/-! ### Before the first `RESET`, and while halted -/

/-- R42: before the first `RESET` any other well-formed operation is refused. -/
theorem accept_beforeFirstReset {p : Presentation} {i : Instr} (hdec : decode p.word = .ok i)
    (hwf : i.wellFormedVia p.via = true) (hi : i ≠ .reset) : accept false p = .error .beforeFirstReset := by
  simp [accept, hdec, hwf, hi]

/-- Settles O52: `accept` lets nothing but `RESET` through, and a `RESET` sets `started`. -/
theorem nothingRunsBeforeTheFirstReset : Obligations.NothingRunsBeforeTheFirstReset := by
  intro s p ps i hs hprog hdec hwf
  constructor
  · intro hi
    have hp : currentPresentation s = p := by rw [currentPresentation, hprog]
    rw [step, hp, hs, accept_beforeFirstReset hdec hwf hi]
  · rintro rfl
    exact ⟨_, (stepExecutesThePresentedOperation.1 s p ps .reset hprog hdec hwf (.inr rfl)).trans (execReset_eq _), rfl⟩

theorem SameRegisters.refl (s : State) : SameRegisters s s :=
  ⟨rfl, rfl, rfl, rfl, rfl, rfl, rfl, rfl, rfl, rfl, rfl, rfl, rfl⟩

/-- Settles O16: the guard on `halted` stops all but `IDLE`, `RDRAW` and `TAKE`; `TAKE` clears a `ready` that is 0 already. -/
theorem haltedRegistersChangeOnlyByReset : Obligations.HaltedRegistersChangeOnlyByReset := by
  intro i s h hs hh hi
  cases i with
  | reset => exact absurd rfl hi
  | idle => exact ⟨s, rfl, .refl s, fun _ => rfl⟩
  | rdraw => exact ⟨_, rfl, { SameRegisters.refl s with }, fun he => by cases he⟩
  | take =>
    obtain ⟨-, -, -, -, -, -, -, -, -, hready⟩ := h.halted hs hh
    exact ⟨_, rfl, { SameRegisters.refl s with ready := hready.symm }, fun he => by cases he⟩
  | tick | meas | r2v | updb | v2d | wrraw | adcSel | adcStart | adcPoll | adcRead | ledClr | ledSet =>
    exact ⟨s, unlessHalted_halted hh _, .refl s, fun _ => rfl⟩

/-! ### What a `TICK` does not see -/

/-- `s` with what a `TICK` does not see as it is in `o`: the main context's registers and `cfg_err` (R35), the latches and
the ADC's side (R34). -/
def State.withUnseen (s o : State) : State :=
  { s with
    baseline := o.baseline, measRaw := o.measRaw, measVoltage := o.measVoltage, measDensity := o.measDensity,
    measSeq := o.measSeq, ready := o.ready, cfgErr := o.cfgErr, lat := o.lat, adc := o.adc }

/-- `r` is the next state `t` with what a `TICK` does not see from `o`, but for latches and an ADC's side, which are those of
`t` where `o` has those of the state `s` before. -/
def AnswersUnseen (o s t : State) (r : Result) : Prop :=
  ∃ l a, r = .next (t.withUnseen { o with lat := l, adc := a }) ∧ (o.lat = s.lat → o.adc = s.adc → l = t.lat ∧ a = t.adc)

/-- R123: the ADC sample writes the poll's answer before it tests it, so it sees neither the latches nor the ADC's side. -/
theorem adcSample_withUnseen (o : State) {s u : State} (h : adcSample s = .next u) :
    AnswersUnseen o s u (adcSample (s.withUnseen o)) := by
  rcases adcSample_cases s with ⟨k, hk, hlt⟩ | hto
  · by_cases hr : s.pins.adcResult.toNat ≤ s.cfg.adcMax.toNat
    · rw [adcSample_done hk hlt hr] at h
      obtain rfl := Host.Outcome.next.inj h
      exact ⟨_, _, adcSample_done (s := s.withUnseen o) hk hlt hr, fun hl _ => by simp [State.withUnseen, hl]⟩
    · rw [adcSample_refused hk hlt (by omega)] at h
      cases h
  · rw [adcSample_timeout hto] at h
    obtain rfl := Host.Outcome.next.inj h
    exact ⟨_, _, adcSample_timeout (s := s.withUnseen o) hto, fun hl _ => by simp [State.withUnseen, hl]⟩

theorem sampleTickEnd_withUnseen (o s : State) : sampleTickEnd (s.withUnseen o) = (sampleTickEnd s).withUnseen o := by
  have hlast : lastTickOfPhase (s.withUnseen o) = lastTickOfPhase s := rfl
  rw [sampleTickEnd, sampleTickEnd, hlast]
  split <;> rfl

@[simp] theorem sampleTickEnd_lat (s : State) : (sampleTickEnd s).lat = s.lat := by
  unfold sampleTickEnd; split <;> rfl

@[simp] theorem sampleTickEnd_adc (s : State) : (sampleTickEnd s).adc = s.adc := by
  unfold sampleTickEnd; split <;> rfl

/-- R120, R35: a `TICK` does the same whatever it does not see holds, and leaves it. -/
theorem execTick_withUnseen (o : State) {s t : State} (h : execTick s = .next t) :
    AnswersUnseen o s t (execTick (s.withUnseen o)) := by
  rcases execTick_cases h with ⟨hh, rfl⟩ | ⟨hh, hp, rfl⟩ | ⟨hh, hp, hc, u, hu, rfl⟩ | ⟨hh, hp, hc, rfl⟩ | ⟨hh, hp, rfl⟩
  · exact ⟨_, _, unlessHalted_halted (s := t.withUnseen o) hh _, And.intro⟩
  · exact ⟨_, _, execTick_settle (s := s.withUnseen o) hh hp, And.intro⟩
  · obtain ⟨l, a, hsample, hsame⟩ := adcSample_withUnseen o hu
    refine ⟨l, a, ?_, by simpa using hsame⟩
    rw [execTick_sampling (s := s.withUnseen o) hh hp hc, hsample, andThen_next, sampleTickEnd_withUnseen]
  · refine ⟨o.lat, o.adc, ?_, by simpa using And.intro⟩
    rw [execTick_later (s := s.withUnseen o) hh hp hc, sampleTickEnd_withUnseen]
  · exact ⟨_, _, execTick_off (s := s.withUnseen o) hh hp, And.intro⟩

/-- Where the latches and the ADC's side are as before too, the `TICK` differs in nothing else. -/
theorem execTick_withUnseen_of_same {o s t : State} (hl : o.lat = s.lat) (ha : o.adc = s.adc) (h : execTick s = .next t) :
    execTick (s.withUnseen o) = .next (t.withUnseen { o with lat := t.lat, adc := t.adc }) := by
  obtain ⟨l, a, hr, hsame⟩ := execTick_withUnseen o h
  obtain ⟨rfl, rfl⟩ := hsame hl ha
  exact hr

/-- A `TICK` leaves what it does not see, but for the latches and the ADC's side. -/
theorem execTick_leaves_unseen {s t : State} (h : execTick s = .next t) :
    t = t.withUnseen { s with lat := t.lat, adc := t.adc } :=
  Host.Outcome.next.inj (h.symm.trans (execTick_withUnseen_of_same rfl rfl h))

theorem execTick_leaves_main {s t : State} (h : execTick s = .next t) :
    t.baseline = s.baseline ∧ SameMeasurement s t ∧ t.ready = s.ready ∧ t.cfgErr = s.cfgErr := by
  rw [execTick_leaves_unseen h]
  exact ⟨rfl, ⟨rfl, rfl, rfl, rfl⟩, rfl, rfl⟩

/-- A change `f` that leaves `halted` and commutes with the guarded update commutes with the guarded meaning. -/
theorem unlessHalted_map (f : State → State) {s t u : State} (hf : (f s).halted = s.halted)
    (h : unlessHalted s (.next u) = .next t) : unlessHalted (f s) (.next (f u)) = .next (f t) := by
  rcases unlessHalted_eq_next h with ⟨hh, rfl⟩ | ⟨hh, h⟩
  · exact unlessHalted_halted (hf.trans hh) _
  · obtain rfl := Host.Outcome.next.inj h
    exact unlessHalted_running (hf.trans hh) _

/-- The state with another cursor and LED (R35). -/
def State.withCursorAndLed (p : Phase) (c : Count) (l : Bool) (s : State) : State :=
  { s with phase := p, ticksInPhase := c, ledOn := l }

/-- Settles O49: a `TICK` does not see the main context's registers, and replacing the cursor and the LED commutes with
`MEAS`, `RDRAW` and `TAKE`. -/
theorem contextsDoNotSeeEachOther : Obligations.ContextsDoNotSeeEachOther := by
  intro s b v r d q y p c l
  constructor
  · intro t (h : execTick s = .next t)
    refine (execTick_withUnseen_of_same (s := s) (o := { s with
      baseline := b, measRaw := r, measVoltage := v, measDensity := d, measSeq := q, ready := y }) rfl rfl h).trans ?_
    rw [execTick_leaves_unseen h]
    rfl
  · rintro i t (rfl | rfl | rfl) h
    · exact unlessHalted_map (State.withCursorAndLed p c l) rfl h
    · cases h; rfl
    · cases h; rfl

/-- The state with other latches and another ADC's side (R34). -/
def State.withHidden (l : Latches) (a : AdcSide) (s : State) : State := { s with lat := l, adc := a }

/-- Settles O50: a `TICK` does not see the hidden state, and the other external operations read none of it. -/
theorem hiddenStateIsNeverRead : Obligations.HiddenStateIsNeverRead := by
  intro i s t l a hi h
  cases i with
  | idle | rdraw | take => cases h; exact ⟨_, _, rfl⟩
  | tick =>
    obtain ⟨l', a', hr, -⟩ := execTick_withUnseen { s with lat := l, adc := a } h
    refine ⟨l', a', hr.trans ?_⟩
    rw [execTick_leaves_unseen h]
    rfl
  | meas => exact ⟨l, a, unlessHalted_map (State.withHidden l a) rfl h⟩
  | reset =>
    rw [execReset_eq] at h ⊢
    obtain rfl := Host.Outcome.next.inj h
    exact ⟨_, _, rfl⟩
  | r2v | updb | v2d | wrraw | adcSel | adcStart | adcPoll | adcRead | ledClr | ledSet => cases hi

/-! ### The owners of each register -/

/-- Settles O48: `RESET` owns every register, a `TICK` leaves all that it does not see, and each other operation is one
update of the state, or none. -/
theorem onlyOwnersWriteARegister : Obligations.OnlyOwnersWriteARegister := by
  intro i s t h
  cases i with
  | reset => simp
  | tick =>
    obtain ⟨hcfg, hhalt, -⟩ := execTick_frame h
    obtain ⟨hbase, hmeas, hready, hcause⟩ := execTick_leaves_main h
    simp [hbase, hmeas, hready, hhalt, hcause, hcfg]
  | idle | rdraw | take =>
    obtain rfl := Host.Outcome.next.inj h
    simp [SameMeasurement]
  | adcRead =>
    rcases unlessHalted_eq_next h with ⟨_, rfl⟩ | ⟨_, h⟩
    · simp [SameMeasurement]
    · obtain ⟨-, rfl⟩ := adcRead_cases h
      simp [SameMeasurement]
  | meas | r2v | updb | v2d | wrraw | adcSel | adcStart | adcPoll | ledClr | ledSet =>
    rcases unlessHalted_eq_next h with ⟨_, rfl⟩ | ⟨_, h⟩
    · simp [SameMeasurement]
    · obtain rfl := Host.Outcome.next.inj h
      simp [SameMeasurement, takeMeasurement]

end Sys2Proof.Machine

/-! The raw-sample buffer over runs: what a read returns, that a repeated write is one write, and how old a raw code can
get (20_memory). -/

namespace Sys2Proof.Machine

/-! ### Reads and repeated writes -/

/-- Writing what the element holds already changes nothing (R64). -/
theorem Memory.write_write_same {m : Memory} (h : Memory.wf m = true) (v : RawCode) :
    Memory.write (Memory.write m 0 v) 0 v = Memory.write m 0 v := by
  obtain ⟨hwf, hread⟩ := Memory.write_zero h v
  obtain ⟨hwf', hread'⟩ := Memory.write_zero hwf v
  exact Memory.wf_ext hwf' hwf ((hread' 0).trans (hread 0).symm)

theorem wrraw_wrraw {s : State} (h : Memory.wf s.rawbuf = true) : wrraw (wrraw s) = wrraw s :=
  congrArg (fun m => { s with rawbuf := m }) (Memory.write_write_same h s.lat.readAnswer)

/-- Settles O30: a read writes its latch and the trace only, and a running `WRRAW` replaces the element by the latch, which
it leaves. -/
theorem readsHaveNoSideEffect : Obligations.ReadsHaveNoSideEffect := by
  constructor
  · intro s
    exact ⟨_, _, rfl, rfl, { SameRegisters.refl s with }, rfl⟩
  · intro s t hm h
    rcases unlessHalted_eq_next h with ⟨_, rfl⟩ | ⟨hh, ht⟩
    · exact h
    · obtain rfl := Host.Outcome.next.inj ht
      exact (unlessHalted_running (s := wrraw s) hh _).trans (congrArg Host.Outcome.next (wrraw_wrraw hm))

/-! ### Every read returns the latest write -/

@[simp] theorem latestWrite_append (w : RawCode) (es fs : List PortEvent) :
    latestWrite w (es ++ fs) = latestWrite (latestWrite w es) fs := by
  induction es generalizing w with
  | nil => rfl
  | cons e es ih => cases e <;> exact ih _

@[simp] theorem readsLatest_append (w : RawCode) (es fs : List PortEvent) :
    ReadsLatest w (es ++ fs) ↔ ReadsLatest w es ∧ ReadsLatest (latestWrite w es) fs := by
  induction es generalizing w with
  | nil => simp [ReadsLatest, latestWrite]
  | cons e es ih => cases e <;> simp [ReadsLatest, latestWrite, ih, and_assoc]

/-- The polls of a busy-wait write nothing. -/
@[simp] theorem latestWrite_polls (w : RawCode) (k : Nat) (d : Bool) :
    latestWrite w (List.replicate k (.adcPoll d)) = w := by
  induction k with
  | zero => rfl
  | succ k ih => exact ih

/-- The polls of a busy-wait read nothing. -/
@[simp] theorem readsLatest_polls (w : RawCode) (k : Nat) (d : Bool) :
    ReadsLatest w (List.replicate k (.adcPoll d)) := by
  induction k with
  | zero => trivial
  | succ k ih => exact ih

/-- From `s` to `t` the events `es` came out, in which every read returned the latest write, as the element of `t` holds it. -/
structure ServesReads (s t : State) (es : List PortEvent) : Prop where
  memory : Memory.wf t.rawbuf = true
  out : t.out = s.out ++ es
  reads : ReadsLatest (memRead s) es
  latest : memRead t = latestWrite (memRead s) es

namespace ServesReads

variable {s t u : State} {es fs : List PortEvent}

theorem refl (h : Memory.wf s.rawbuf = true) : ServesReads s s [] := ⟨h, (List.append_nil _).symm, trivial, rfl⟩

theorem trans (h : ServesReads s t es) (h' : ServesReads t u fs) : ServesReads s u (es ++ fs) where
  memory := h'.memory
  out := by rw [h'.out, h.out, List.append_assoc]
  reads := (readsLatest_append _ _ _).mpr ⟨h.reads, h.latest ▸ h'.reads⟩
  latest := by rw [h'.latest, h.latest, latestWrite_append]

/-- R123, R150: a sample stores exactly the answers it reads. -/
theorem of_adcSample (hm : Memory.wf s.rawbuf = true) (h : adcSample s = .next u) : ∃ es, ServesReads s u es := by
  rcases adcSample_cases s with ⟨k, hk, hlt⟩ | hto
  · by_cases hr : s.pins.adcResult.toNat ≤ s.cfg.adcMax.toNat
    · rw [adcSample_done hk hlt hr] at h
      obtain rfl := Host.Outcome.next.inj h
      refine ⟨_, (Memory.write_zero hm _).1, rfl, by simp [ReadsLatest], ?_⟩
      exact (memRead_memWrite hm s.pins.adcResult).trans (by simp [latestWrite])
    · rw [adcSample_refused hk hlt (by omega)] at h
      cases h
  · rw [adcSample_timeout hto] at h
    obtain rfl := Host.Outcome.next.inj h
    refine ⟨_, hm, rfl, by simp [ReadsLatest], ?_⟩
    show memRead s = _
    simp [latestWrite]

/-- The end of a sampling phase's tick has at most an `LED.CLR` for the trace (R122). -/
theorem of_sampleTickEnd (hm : Memory.wf s.rawbuf = true) : ∃ es, ServesReads s (sampleTickEnd s) es := by
  refine ⟨_, by rwa [sampleTickEnd_rawbuf], sampleTickEnd_out s, ?_, ?_⟩
  · split <;> trivial
  · rw [memRead, sampleTickEnd_rawbuf]
    split <;> rfl

theorem of_execTick (hm : Memory.wf s.rawbuf = true) (h : execTick s = .next t) : ∃ es, ServesReads s t es := by
  rcases execTick_cases h with ⟨_, rfl⟩ | ⟨_, _, rfl⟩ | ⟨_, _, _, u, hu, rfl⟩ | ⟨_, _, _, rfl⟩ | ⟨_, _, rfl⟩
  · exact ⟨_, refl hm⟩
  · exact ⟨[.ledSet], hm, rfl, trivial, rfl⟩
  · obtain ⟨es, hes⟩ := of_adcSample hm hu
    obtain ⟨fs, hfs⟩ := of_sampleTickEnd hes.memory
    exact ⟨_, hes.trans hfs⟩
  · exact of_sampleTickEnd hm
  · exact ⟨[], { refl hm with }⟩

/-- R63 for one operation: of the external ones but `RESET` only a `TICK` writes the buffer and only `RDRAW` shows it. -/
theorem of_exec {i : Instr} (hm : Memory.wf s.rawbuf = true) (hi : i.isExternal = true) (hr : i ≠ .reset)
    (h : exec i s = .next t) : ∃ es, ServesReads s t es := by
  cases i with
  | reset => exact absurd rfl hr
  | idle => cases h; exact ⟨_, refl hm⟩
  | tick => exact of_execTick hm h
  | rdraw => cases h; exact ⟨[.rdraw (memRead s)], hm, rfl, ⟨rfl, trivial⟩, rfl⟩
  | take => cases h; exact ⟨[.take (measRecord s)], hm, rfl, trivial, rfl⟩
  | meas =>
    rcases unlessHalted_eq_next h with ⟨_, rfl⟩ | ⟨_, h⟩
    · exact ⟨_, refl hm⟩
    · cases h; exact ⟨[], { refl hm with }⟩
  | r2v | updb | v2d | wrraw | adcSel | adcStart | adcPoll | adcRead | ledClr | ledSet => cases hi

end ServesReads

/-- No operation writes the schedule (R8, log 6). -/
theorem exec_program {i : Instr} {s t : State} (h : exec i s = .next t) : t.program = s.program := by
  have hsched : exec i s = withSchedule s.program (exec i s) := exec_schedule s.program i s
  rw [h, withSchedule_next] at hsched
  rw [Host.Outcome.next.inj hsched]
  rfl

/-- A step takes one presentation off the schedule. -/
theorem step_program {s t : State} (h : step s = .next t) : t.program = s.program.tail := by
  obtain ⟨i, -, hexec⟩ := step_eq_next h
  exact exec_program hexec

/-- Where no `RESET` is scheduled the next presentation is none either: an empty schedule presents `IDLE` (R108). -/
theorem currentPresentation_ordinary {s : State} (h : ∀ p ∈ s.program, IsOrdinary p) :
    IsOrdinary (currentPresentation s) := by
  unfold currentPresentation
  cases hp : s.program with
  | nil => exact ⟨rfl, by show encode .idle ≠ encode .reset; decide⟩
  | cons p ps => exact h p (hp ▸ List.mem_cons_self)

/-- R63 for one step on the `op` input. -/
theorem ServesReads.of_step {s t : State} (hm : Memory.wf s.rawbuf = true) (hp : IsOrdinary (currentPresentation s))
    (h : step s = .next t) : ∃ es, ServesReads s t es := by
  obtain ⟨i, hacc, hexec⟩ := step_eq_next h
  obtain ⟨hvia, hword⟩ := hp
  have hreset : i ≠ .reset := fun hi => hword (hi ▸ accept_word_eq hacc)
  obtain ⟨es, hes⟩ := of_exec (s := fetched s) hm (accept_opInput_external hvia hacc) hreset hexec
  exact ⟨es, { hes with }⟩

/-- R63 for a run of any length. -/
theorem ServesReads.of_stepN {n : Nat} {s t : State} (hm : Memory.wf s.rawbuf = true)
    (hp : ∀ p ∈ s.program, IsOrdinary p) (h : stepN n s = .next t) : ∃ es, ServesReads s t es := by
  induction n generalizing s with
  | zero => cases h; exact ⟨_, refl hm⟩
  | succ n ih =>
    obtain ⟨u, hu, ht⟩ := andThen_eq_next h
    obtain ⟨es, hes⟩ := of_step hm (currentPresentation_ordinary hp) hu
    have hrest : ∀ p ∈ u.program, IsOrdinary p := fun p hmem => hp p (List.mem_of_mem_tail (step_program hu ▸ hmem))
    obtain ⟨fs, hfs⟩ := ih hes.memory hrest ht
    exact ⟨_, hes.trans hfs⟩

theorem memRead_of_reset {r s : State} (hm : Memory.wf r.rawbuf = true) (h : exec .reset r = .next s) :
    memRead s = 0 := by
  rw [execReset_eq] at h
  obtain rfl := Host.Outcome.next.inj h
  exact memRead_resetRegisters hm _

/-- Settles O31: each step's events serve every read, by induction on the number of steps; right after a `RESET` the element
is 0. -/
theorem everyReadReturnsTheLatestWrite : Obligations.EveryReadReturnsTheLatestWrite := by
  intro n s t hm hp h
  obtain ⟨es, hes⟩ := ServesReads.of_stepN hm hp h
  refine ⟨⟨es, hes.out, hes.reads, hes.latest⟩, fun r hr hreset => ?_⟩
  rw [← memRead_of_reset hr hreset]
  exact ⟨es, hes.out, hes.reads, hes.latest⟩

/-! ### A cycle of ticks from any cursor -/

/-- From a cursor below its bound the next sampling tick is less than a cycle away. -/
theorem ticksToSample_lt_cycleTicks {c : Cfg} {p : Phase} {t : Count} (h : t.toNat < (bound c p).toNat)
    (hs : 1 ≤ c.sampleTicks.toNat) : ticksToSample c p t < c.cycleTicks := by
  cases p with
  | ledOnSettle => simp only [ticksToSample, Cfg.cycleTicks]; omega
  | ledOff => simp only [ticksToSample, Cfg.cycleTicks]; omega
  | ledOnSample =>
    unfold ticksToSample Cfg.cycleTicks
    by_cases ht : t = 0
    · simp only [if_pos ht]; omega
    · have := toNat_pos_of_ne_zero ht
      simp only [bound] at h
      simp only [if_neg ht]; omega

/-- How many ticks lie between the end of a phase and the next sampling tick. -/
def ticksAfterPhase (c : Cfg) : Phase → Nat
  | .ledOnSettle => 0
  | .ledOnSample => c.offTicks.toNat + c.settleTicks.toNat
  | .ledOff => c.settleTicks.toNat

/-- Before any but the sampling tick, the rest of the phase and what lies after it are still to come. -/
theorem ticksToSample_eq_of_ne_zero {c : Cfg} {p : Phase} {t : Count} (hz : ticksToSample c p t ≠ 0) :
    ticksToSample c p t = (bound c p).toNat - t.toNat + ticksAfterPhase c p := by
  cases p with
  | ledOnSettle | ledOff => rfl
  | ledOnSample =>
    have ht : t ≠ 0 := fun ht => hz (if_pos ht)
    rw [ticksToSample, if_neg ht, Nat.add_assoc]
    rfl

/-- The ticks before the next sampling tick tell the cursor: the phases have ranges that do not meet (R125). -/
theorem cursor_eq_of_ticksToSample_eq {c : Cfg} {p q : Phase} {t u : Count} (ht : t.toNat < (bound c p).toNat)
    (hu : u.toNat < (bound c q).toNat) (h : ticksToSample c p t = ticksToSample c q u) : p = q ∧ t = u := by
  by_cases hz : ticksToSample c p t = 0
  · obtain ⟨rfl, rfl⟩ := cursor_of_ticksToSample_eq_zero ht hz
    obtain ⟨rfl, rfl⟩ := cursor_of_ticksToSample_eq_zero hu (h ▸ hz)
    exact ⟨rfl, rfl⟩
  · have hz' : ticksToSample c q u ≠ 0 := h ▸ hz
    rw [ticksToSample_eq_of_ne_zero hz, ticksToSample_eq_of_ne_zero hz'] at h
    have hphase : p = q := by
      by_contra hne
      cases p <;> cases q <;> simp only [bound, ticksAfterPhase, not_true_eq_false] at ht hu h hne <;> omega
    subst hphase
    exact ⟨rfl, BitVec.eq_of_toNat_eq (by omega)⟩

/-- A sampling tick is followed by all the others of its cycle before the next one. -/
theorem ticksToSample_nextCursor_sampling {c : Cfg} (h : 1 ≤ c.sampleTicks.toNat) :
    ticksToSample c (nextCursor c .ledOnSample 0).1 (nextCursor c .ledOnSample 0).2 + 1 = c.cycleTicks := by
  have h0 : (0 : Count).toNat = 0 := rfl
  have hone : (0 + 1 : Count).toNat = 1 := rfl
  have hne : (0 + 1 : Count) ≠ 0 := by decide
  rw [nextCursor_eq, bound]
  split
  · simp only [ticksToSample, Phase.next, Cfg.cycleTicks]; omega
  · simp only [ticksToSample, if_neg hne, Cfg.cycleTicks]; omega

/-- A sample starts one conversion (R123). -/
theorem adcSample_count {s u : State} (h : adcSample s = .next u) :
    ∃ es, u.out = s.out ++ es ∧ es.count .adcStart = 1 := by
  rcases adcSample_cases s with ⟨k, hk, hlt⟩ | hto
  · by_cases hr : s.pins.adcResult.toNat ≤ s.cfg.adcMax.toNat
    · rw [adcSample_done hk hlt hr] at h
      obtain rfl := Host.Outcome.next.inj h
      exact ⟨_, rfl, by simp [List.count_replicate]⟩
    · rw [adcSample_refused hk hlt (by omega)] at h
      cases h
  · rw [adcSample_timeout hto] at h
    obtain rfl := Host.Outcome.next.inj h
    exact ⟨_, rfl, by simp [List.count_replicate]⟩

/-- The end of a sampling phase's tick starts no conversion. -/
theorem sampleTickEnd_count (s : State) :
    ∃ es, (sampleTickEnd s).out = s.out ++ es ∧ es.count .adcStart = 0 := by
  refine ⟨_, sampleTickEnd_out s, ?_⟩
  split <;> rfl

/-- R126: of the ticks of a running block the sampling tick starts one conversion and no other starts any. -/
theorem execTick_count {s t : State} (hh : s.halted = false) (h : execTick s = .next t) :
    ∃ es, t.out = s.out ++ es ∧
      es.count .adcStart = if s.phase = .ledOnSample ∧ s.ticksInPhase = 0 then 1 else 0 := by
  rcases execTick_cases h with ⟨hh', _⟩ | ⟨_, hp, rfl⟩ | ⟨_, hp, hc, u, hu, rfl⟩ | ⟨_, _, hc, rfl⟩ | ⟨_, hp, rfl⟩
  · rw [hh] at hh'; cases hh'
  · exact ⟨[.ledSet], rfl, by simp [hp]⟩
  · obtain ⟨es, hes, hone⟩ := adcSample_count hu
    obtain ⟨fs, hfs, hnone⟩ := sampleTickEnd_count u
    refine ⟨es ++ fs, by rw [hfs, hes, List.append_assoc], ?_⟩
    rw [List.count_append, hone, hnone, if_pos ⟨hp, hc⟩]
  · obtain ⟨es, hes, hnone⟩ := sampleTickEnd_count s
    exact ⟨es, hes, by rw [hnone, if_neg fun hs => hc hs.2]⟩
  · exact ⟨[], by simp, by simp [hp]⟩

theorem RunningInv.sampleTicks_pos {s : State} (h : RunningInv s) : 1 ≤ s.cfg.sampleTicks.toNat :=
  bound_pos_of_valid h.valid .ledOnSample

/-- A running tick comes one nearer to the next sampling tick, from the sampling tick itself around the whole cycle; so the
conversions it starts are what the distance gains in cycles. -/
theorem distance_execTick_add {s t : State} (h : RunningInv s) (ht : execTick s = .next t) :
    ∃ es, t.out = s.out ++ es ∧ t.distance + 1 = s.distance + s.cfg.cycleTicks * es.count .adcStart := by
  obtain ⟨es, hout, hcount⟩ := execTick_count h.running ht
  refine ⟨es, hout, ?_⟩
  obtain ⟨hcfg, -, -, hcur⟩ := execTick_frame ht
  have hcur := hcur h.running
  have hnext : t.distance = ticksToSample s.cfg (nextCursor s.cfg s.phase s.ticksInPhase).1
      (nextCursor s.cfg s.phase s.ticksInPhase).2 := by rw [← hcur, State.distance, hcfg]
  rw [hcount, hnext]
  split
  · rename_i hsampling
    obtain ⟨hphase, hticks⟩ := hsampling
    rw [State.distance, hphase, hticks, ticksToSample_nextCursor_sampling h.sampleTicks_pos]
    simp [ticksToSample]
  · rename_i hother
    exact ticksToSample_nextCursor h.cursor fun hz => hother (cursor_of_ticksToSample_eq_zero h.cursor hz)

/-- A step that is presented a `TICK` executes it (R120). -/
theorem step_tick {s : State} {p : Presentation} {q : List Presentation} (hprog : s.program = p :: q)
    (hs : s.started = true) (hp : IsTick s.cfg p) :
    step s = execTick { s with pins := p.pins, program := q } := by
  obtain ⟨hvia, hword, -⟩ := hp
  exact stepExecutesThePresentedOperation.1 s p q .tick hprog (by rw [hword, decode_encode]) (by rw [hvia]; rfl) (.inl hs)

/-- Any number of scheduled ticks complete in a running block, and start as many conversions as the distance gains in
cycles on the ticks spent. -/
theorem stepN_ticks {s : State} {ps rest : List Presentation} (h : RunningInv s) (hs : s.started = true)
    (hprog : s.program = ps ++ rest) (hp : ∀ p ∈ ps, IsTick s.cfg p) :
    ∃ t es, stepN ps.length s = .next t ∧ RunningInv t ∧ t.cfg = s.cfg ∧ t.out = s.out ++ es ∧
      t.distance + ps.length = s.distance + s.cfg.cycleTicks * es.count .adcStart := by
  induction ps generalizing s with
  | nil => exact ⟨s, [], rfl, h, rfl, by simp, by simp⟩
  | cons p ps ih =>
    have htick := hp p List.mem_cons_self
    have ⟨_, _, hadc⟩ := htick
    have hin : RunningInv { s with pins := p.pins, program := ps ++ rest } := { h with }
    obtain ⟨u, hu⟩ := execTick_completes (s := { s with pins := p.pins, program := ps ++ rest }) hadc
    have hstep : step s = .next u := (step_tick hprog hs htick).trans hu
    obtain ⟨(hcfg : u.cfg = s.cfg), -, hstart, -⟩ := execTick_frame hu
    obtain ⟨es, hes, (hdist : _ = s.distance + s.cfg.cycleTicks * _)⟩ := distance_execTick_add hin hu
    obtain ⟨t, fs, ht, hinv, htcfg, hfs, hrest⟩ := ih (hin.execTick hu) (hstart.trans hs)
      (exec_program (i := .tick) hu) fun p hmem => hcfg ▸ hp p (List.mem_cons_of_mem _ hmem)
    refine ⟨t, es ++ fs, ?_, hinv, htcfg.trans hcfg, by rw [hfs, hes, List.append_assoc], ?_⟩
    · rw [List.length_cons, stepN, hstep, andThen_next, ht]
    · rw [hcfg] at hrest
      rw [List.count_append, Nat.mul_add, List.length_cons]
      omega

/-- Two distances less than `n` apart, with `n` spent on the way from one to the other: they agree, and one `n` was gained. -/
theorem eq_one_and_eq_of_add_eq_add_mul {a b n m : Nat} (ha : a < n) (hb : b < n) (h : a + n = b + n * m) :
    m = 1 ∧ a = b := by
  match m with
  | 0 => omega
  | 1 => exact ⟨rfl, by omega⟩
  | m + 2 =>
    rw [Nat.mul_add] at h
    omega

/-- Settles O26: the distance to the next sampling tick counts the conversions in cycles, stays below one, and tells the
cursor. -/
theorem anyCycleOfTicksSamplesOnce : Obligations.AnyCycleOfTicksSamplesOnce := by
  intro s ps rest hinv hs hh hprog hp hlen
  have hrun := hinv.runningInv hs hh
  obtain ⟨t, es, ht, htrun, hcfg, hout, hdist⟩ := stepN_ticks hrun hs hprog hp
  have hcursor := hcfg ▸ htrun.cursor
  have hnear : t.distance = ticksToSample s.cfg t.phase t.ticksInPhase := by rw [State.distance, hcfg]
  rw [hlen, hnear] at hdist
  obtain ⟨hone, hsame⟩ := eq_one_and_eq_of_add_eq_add_mul (ticksToSample_lt_cycleTicks hcursor hrun.sampleTicks_pos)
    (ticksToSample_lt_cycleTicks hrun.cursor hrun.sampleTicks_pos) hdist
  obtain ⟨hphase, hticks⟩ := cursor_eq_of_ticksToSample_eq hcursor hrun.cursor hsame
  exact ⟨t, es, ht, hphase, hticks, hout, hone⟩

end Sys2Proof.Machine

/-! The encodings: the words of operations, the refusals of codes that have no step, the phases, the data records and the
pseudo-operation `CYCLE` (30_encoding). -/

namespace Sys2Proof.Machine

/-! ### Operation words -/

/-- Settles O1: each word is the one `encode` gives for its operation. -/
theorem wordsStandForTheirOperations : Obligations.WordsStandForTheirOperations :=
  ⟨decode_encode .idle, decode_encode .tick, decode_encode .meas, decode_encode .rdraw, decode_encode .take,
    decode_encode .reset, decode_encode .r2v, decode_encode .updb, decode_encode .v2d, decode_encode .wrraw,
    decode_encode .adcSel, decode_encode .adcStart, decode_encode .adcPoll, decode_encode .adcRead,
    decode_encode .ledClr, decode_encode .ledSet⟩

/-- Settles O2: each operation has one word, and each word at most one operation. -/
theorem decodeEncodeInverse : Obligations.DecodeEncodeInverse :=
  ⟨decode_encode, fun _ _ => encode_of_decode⟩

/-! ### Words that have no step -/

/-- A step refuses what `accept` refuses, for the same reason. -/
theorem step_refused {s : State} {p : Presentation} {ps : List Presentation} {r : Refusal} (hprog : s.program = p :: ps)
    (h : accept s.started p = .error r) : step s = .refused r := by
  have hp : currentPresentation s = p := by rw [currentPresentation, hprog]
  rw [step, hp, h]

/-- A word that encodes nothing is refused, whoever presents it and whenever (R102). -/
theorem accept_of_decode_error {b : Bool} {p : Presentation} {e : DecodeError} (h : decode p.word = .error e) :
    accept b p = .error (refusalOf e) := by
  rw [accept, h]

/-- An operation is refused to a presenter that may not present it (R103). -/
theorem accept_of_wrongPort {b : Bool} {p : Presentation} {i : Instr} (hdec : decode p.word = .ok i)
    (hvia : i.wellFormedVia p.via = false) : accept b p = .error (.wrongPort i) := by
  simp only [accept, hdec, if_pos hvia]

theorem decode_reserved_iff (w : BitVec 4) :
    decode (.op4 w) = .error (.reservedCode w) ↔ w = 0x5 ∨ w = 0x6 ∨ w = 0xC ∨ w = 0xD ∨ w = 0xE ∨ w = 0xF := by
  revert w
  decide

/-- Settles O3: the six codes by the operation map, and what does not decode is not accepted. -/
theorem reservedCodesHaveNoStep : Obligations.ReservedCodesHaveNoStep := by
  refine ⟨decode_reserved_iff, fun s p ps w hprog hword hdec => ?_⟩
  exact step_refused hprog (accept_of_decode_error (hword ▸ hdec))

/-- The codes `0x8` to `0xB` are those of the internal operations (R101). -/
theorem decode_internal {w : BitVec 4} (hlo : 0x8 ≤ w.toNat) (hhi : w.toNat ≤ 0xB) :
    ∃ i, decode (.op4 w) = .ok i ∧ i.isExternal = false := by
  have hw : w = 0x8 ∨ w = 0x9 ∨ w = 0xA ∨ w = 0xB := by bv_omega
  rcases hw with rfl | rfl | rfl | rfl
  · exact ⟨.r2v, rfl, rfl⟩
  · exact ⟨.updb, rfl, rfl⟩
  · exact ⟨.v2d, rfl, rfl⟩
  · exact ⟨.wrraw, rfl, rfl⟩

/-- Settles O4: the codes decode to internal operations, and the `op` input takes external ones only. -/
theorem internalCodesRefusedOnOpInput : Obligations.InternalCodesRefusedOnOpInput := by
  intro s p ps w hprog hvia hword hlo hhi
  obtain ⟨i, hdec, hinternal⟩ := decode_internal hlo hhi
  have hport : i.wellFormedVia p.via = false := hvia ▸ hinternal
  exact ⟨i, hdec, step_refused hprog (accept_of_wrongPort (hword ▸ hdec) hport)⟩

/-! ### Phases -/

/-- Settles O5, by the three rows of the table. -/
theorem phaseCodesAndSuccessor : Obligations.PhaseCodesAndSuccessor := by
  refine ⟨rfl, rfl, rfl, rfl, fun p => ?_⟩
  cases p with
  | ledOnSettle | ledOnSample | ledOff => exact ⟨rfl, rfl⟩

/-! ### The configuration record -/

/-- A field cut out of a word, as a number (R96). -/
theorem toNat_extractLsb' {n : Nat} (w : BitVec n) (start len : Nat) :
    (w.extractLsb' start len).toNat = w.toNat / 2 ^ start % 2 ^ len := by
  rw [BitVec.extractLsb'_toNat, Nat.shiftRight_eq_div_pow]

/-- Settles O6: `RESET` latches `cfg_in` cut into its fields. -/
theorem configFieldsAsLatchedByReset : Obligations.ConfigFieldsAsLatchedByReset := by
  intro s
  have field := toNat_extractLsb' s.pins.cfgIn
  have lowest := field 0 8
  rw [pow_zero, Nat.div_one] at lowest
  exact ⟨_, execReset_eq s, lowest, getLsbD_eq_mod _ 8, field 9 8, field 17 32, field 49 16, field 65 32, field 97 16,
    field 113 16, field 129 16, field 145 32, field 177 32⟩

/-- A one-bit field is the field of length 1 at its place. -/
theorem ofBool_getLsbD {n : Nat} (w : BitVec n) (i : Nat) : BitVec.ofBool (w.getLsbD i) = w.extractLsb' i 1 := by
  ext j hj
  obtain rfl : j = 0 := by omega
  simp

/-- The fields' ranges join without a gap, from bit 208 down to bit 0 (R96). -/
theorem packCfg_unpackCfg (w : CfgWord) : packCfg (unpackCfg w) = w := by
  rw [packCfg, unpackCfg, ofBool_getLsbD]
  iterate 10 rw [BitVec.extractLsb'_append_extractLsb'_eq_extractLsb' (by rfl)]
  exact BitVec.extractLsb'_eq_self

/-- A concatenation tells its two parts. -/
theorem append_inj {n m : Nat} {x x' : BitVec n} {y y' : BitVec m} (h : x ++ y = x' ++ y') : x = x' ∧ y = y' := by
  constructor
  · rw [← BitVec.extractLsb'_append_eq_left (a := x) (b := y), h, BitVec.extractLsb'_append_eq_left]
  · rw [← BitVec.extractLsb'_append_eq_right (a := x) (b := y), h, BitVec.extractLsb'_append_eq_right]

/-- A record tells its configuration: the fields come off one by one, the least significant first. -/
theorem packCfg_injective : Function.Injective packCfg := by
  intro c d h
  obtain ⟨h, ledId⟩ := append_inj h
  obtain ⟨h, ledActiveHigh⟩ := append_inj h
  obtain ⟨h, adcCh⟩ := append_inj h
  obtain ⟨h, vccFx⟩ := append_inj h
  obtain ⟨h, adcMax⟩ := append_inj h
  obtain ⟨h, tickNs⟩ := append_inj h
  obtain ⟨h, settleTicks⟩ := append_inj h
  obtain ⟨h, sampleTicks⟩ := append_inj h
  obtain ⟨h, offTicks⟩ := append_inj h
  obtain ⟨base0Fx, slopeFx⟩ := append_inj h
  cases c
  cases d
  rw [Cfg.mk.injEq]
  exact ⟨ledId, BitVec.ofBool_eq_iff_eq.mp ledActiveHigh, adcCh, vccFx, adcMax, tickNs, settleTicks, sampleTicks, offTicks,
    slopeFx, base0Fx⟩

/-- Settles O7: packing undoes unpacking, and is injective, so unpacking undoes packing. -/
theorem configRecordRoundTrip : Obligations.ConfigRecordRoundTrip :=
  ⟨fun _ => packCfg_injective (packCfg_unpackCfg _), packCfg_unpackCfg⟩

/-! ### The measurement record -/

/-- Settles O46: `TAKE` answers the packed measurement registers, whose places are those of `packMeas_concat`. -/
theorem takeReturnsTheRecord : Obligations.TakeReturnsTheRecord := by
  intro s
  refine ⟨measRecord s, { s.lat with measOut := measRecord s }, rfl, ?_⟩
  rw [measRecord, packMeas_concat]
  omega

/-! ### `CYCLE` -/

theorem traceWords_append (xs ys : List TraceOp) : traceWords (xs ++ ys) = traceWords xs ++ traceWords ys :=
  List.map_append

theorem traceWords_ticks (n : Nat) : traceWords (ticks n) = List.replicate n 0x1 := List.map_replicate

/-- R110: a cycle is a `TICK` word for each of its ticks, the annotated one included. -/
theorem traceWords_cycle {c : Cfg} (h : 1 ≤ c.sampleTicks.toNat) (a : AdcOutcome) :
    traceWords (cycle c a) = List.replicate c.cycleTicks 0x1 := by
  have hlen : c.settleTicks.toNat + 1 + (c.sampleTicks.toNat - 1 + c.offTicks.toNat) = c.cycleTicks := by
    rw [Cfg.cycleTicks]; omega
  have hone : traceWords [.tickAdc a] = List.replicate 1 0x1 := rfl
  rw [cycle, traceWords_append, traceWords_append, traceWords_ticks, traceWords_ticks, hone,
    List.replicate_append_replicate, List.replicate_append_replicate, hlen]

/-- Ticks without an annotation are well placed as far as the next sampling tick, and lead to a cursor that is as many ticks
nearer to it (R109). -/
theorem adcWellPlaced_ticks {c : Cfg} {p : Phase} {t : Count} {n : Nat} (hb : ∀ q, 0 < (bound c q).toNat)
    (ht : t.toNat < (bound c p).toNat) (hn : n ≤ ticksToSample c p t) :
    ∃ q u, u.toNat < (bound c q).toNat ∧ ticksToSample c q u + n = ticksToSample c p t ∧
      ∀ ops, adcWellPlaced (some (c, p, t)) (ticks n ++ ops) = adcWellPlaced (some (c, q, u)) ops := by
  induction n generalizing p t with
  | zero => exact ⟨p, t, ht, rfl, fun _ => rfl⟩
  | succ n ih =>
    have hz : ticksToSample c p t ≠ 0 := by omega
    have hother : (p == .ledOnSample && t == 0) = false := by
      rw [Bool.and_eq_false_iff, beq_eq_false_iff_ne, beq_eq_false_iff_ne, ← not_and_or]
      rintro ⟨rfl, rfl⟩
      exact hz rfl
    have hnext := ticksToSample_nextCursor ht hz
    obtain ⟨q, u, hu, hdist, hops⟩ := ih (nextCursor_lt_bound hb ht) (by omega)
    refine ⟨q, u, hu, by omega, fun ops => ?_⟩
    rw [← hops ops, ticks, List.replicate_succ, List.cons_append, adcWellPlaced, hother]
    rfl

/-- R109, R110: the annotation of a cycle stands on its sampling tick, `SETTLE_TICKS` ticks from the start, and the rest of
the cycle does not reach the next one. -/
theorem adcWellPlaced_cycle {c : Cfg} {a : AdcOutcome} (hb : ∀ q, 0 < (bound c q).toNat) (ha : a.legal c = true) :
    adcWellPlaced (some (c, .ledOnSettle, 0)) (cycle c a) = true := by
  obtain ⟨q, u, hu, hdist, hops⟩ := adcWellPlaced_ticks (n := c.settleTicks.toNat) (t := 0) hb (hb .ledOnSettle) le_rfl
  have hstart : ticksToSample c .ledOnSettle 0 = c.settleTicks.toNat := rfl
  obtain ⟨rfl, rfl⟩ := cursor_of_ticksToSample_eq_zero hu (by omega)
  have hsample : 1 ≤ c.sampleTicks.toNat := hb .ledOnSample
  have hrest := ticksToSample_nextCursor_sampling hsample
  have hafter := nextCursor_lt_bound (p := .ledOnSample) (t := 0) hb (hb .ledOnSample)
  rw [Cfg.cycleTicks] at hrest
  obtain ⟨_, _, -, -, hrestOps⟩ :=
    adcWellPlaced_ticks (n := c.sampleTicks.toNat - 1 + c.offTicks.toNat) hb hafter (by omega)
  rw [cycle, List.append_assoc, hops, List.singleton_append, adcWellPlaced, ha, ← List.append_nil (ticks _), hrestOps]
  rfl

/-- Settles O8: one word for each tick, and the bounds say that no phase of the cycle is empty. -/
theorem cycleExpandsToTickWords : Obligations.CycleExpandsToTickWords := by
  intro c a hsettle hsample hoff ha
  have hb : ∀ q, 0 < (bound c q).toNat := fun
    | .ledOnSettle => hsettle
    | .ledOnSample => hsample
    | .ledOff => hoff
  exact ⟨traceWords_cycle hsample a, adcWellPlaced_cycle hb ha⟩

end Sys2Proof.Machine

/-! The acquisition state machine: what a `TICK` does in each phase, the port commands, and a cycle of ticks from its start
(40_acquisition). -/

namespace Sys2Proof.Machine

/-! ### The LED with the cursor -/

/-- Settles O56: a step on the `op` input executes an accepted external operation, and `LedInv.exec` says that each keeps
the LED with the cursor. -/
theorem stepKeepsTheLedWithTheCursor : Obligations.StepKeepsTheLedWithTheCursor := by
  intro s t h hl hvia ht
  obtain ⟨i, hacc, hexec⟩ := step_eq_next ht
  obtain ⟨-, -, hstart⟩ := accept_eq_ok.mp hacc
  exact LedInv.exec (s := fetched s) hl h.fetched hstart (accept_opInput_external hvia hacc) hexec

/-! ### A tick of each phase -/

/-- Settles O22: the guard on `halted`. -/
theorem haltedTickDoesNothing : Obligations.HaltedTickDoesNothing := fun _ hh => unlessHalted_halted hh _

/-- Settles O17: `LED.SET`, then the cursor's move. -/
theorem settleTickTurnsTheLedOn : Obligations.SettleTickTurnsTheLedOn := by
  intro s hh hp
  show execTick s = _
  rw [execTick_settle hh hp, advanceCursor_eq]
  simp [ledSet, emit, hp, bound, Phase.next]

/-- Settles O21: the cursor's move alone. -/
theorem offTickOnlyCounts : Obligations.OffTickOnlyCounts := by
  intro s hh hp
  show execTick s = _
  rw [execTick_off hh hp, advanceCursor_eq]
  simp [hp, bound, Phase.next]

/-- Settles O20: the end of a tick of `LedOnSample`, with no ADC work before it. -/
theorem laterSampleTickOnlyCounts : Obligations.LaterSampleTickOnlyCounts := by
  intro s hh hp hc
  show execTick s = _
  rw [execTick_later hh hp hc, sampleTickEnd_eq hp]

/-- The sampling tick, from the state its ADC sample answers: the end of a tick of `LedOnSample` with the counter still 0
(R122, R123). -/
theorem execTick_sampling_next {s u : State} (hh : s.halted = false) (hp : s.phase = .ledOnSample)
    (hc : s.ticksInPhase = 0) (hu : adcSample s = .next u) :
    exec .tick s = .next
      { u with
        ledOn := if s.cfg.sampleTicks.toNat = 1 then false else s.ledOn
        out := u.out ++ (if s.cfg.sampleTicks.toNat = 1 then [.ledClr] else [])
        phase := if s.cfg.sampleTicks.toNat = 1 then .ledOff else .ledOnSample
        ticksInPhase := if s.cfg.sampleTicks.toNat = 1 then 0 else 1 } := by
  obtain ⟨hcfg, -, -, hphase, hticks, hled⟩ := adcSample_keeps hu
  show execTick s = _
  rw [execTick_sampling hh hp hc, hu, andThen_next, sampleTickEnd_eq (hphase.trans hp), hticks, hc, hcfg, hled]
  simp [eq_comm]

/-- Settles O18: the ADC sample's two outcomes, each followed by the end of the tick. -/
theorem samplingTickHasTwoOutcomes : Obligations.SamplingTickHasTwoOutcomes := by
  intro s hh hp hc
  constructor
  · intro k hk hlt hr
    refine ⟨⟨some 0, { channel := s.cfg.adcCh, converting := false },
      { s.lat with pollAnswer := true, readAnswer := s.pins.adcResult }, ?_⟩, fun hm => (Memory.write_zero hm _).2⟩
    rw [execTick_sampling_next hh hp hc (adcSample_done hk hlt hr)]
    simp only [List.append_assoc]
  · intro hto
    refine ⟨s.pins.adcDoneAfter.map (· - Config.adcPollMax), { channel := s.cfg.adcCh, converting := true },
      { s.lat with pollAnswer := false }, ?_⟩
    rw [execTick_sampling_next hh hp hc (adcSample_timeout hto)]
    simp only [List.append_assoc]

/-- Settles O19: `ADC.READ` refuses the answer, and a sample with outcome `Done` reads it. -/
theorem adcResultAboveMaxHasNoStep : Obligations.AdcResultAboveMaxHasNoStep := by
  intro s hh hr
  refine ⟨(unlessHalted_running hh _).trans (adcRead_refused hr), fun hp hc hd => ?_⟩
  obtain ⟨k, hk, hlt⟩ := Pins.isDone_iff.mp hd
  show execTick s = _
  rw [execTick_sampling hh hp hc, adcSample_refused hk hlt hr, andThen_refused]

/-! ### The port commands -/

/-- A poll that the ADC answers with done (R132). -/
theorem adcPoll_done {s : State} (h : s.pins.adcDoneAfter = some 0) :
    adcPoll s =
      { s with
        adc := { s.adc with converting := false }
        lat := { s.lat with pollAnswer := true }
        out := s.out ++ [.adcPoll true] } := by
  have hd : s.pins.adcDone = true := by rw [Pins.adcDone, h]; rfl
  have hpins : s.pins.afterPoll = s.pins := by
    rw [Pins.afterPoll, h, Option.map_some, Nat.zero_sub, ← h]
  simp [adcPoll, emit, hd, hpins]

/-- A poll that the ADC answers with not yet done (R132). -/
theorem adcPoll_notDone {s : State} (h : s.pins.adcDoneAfter ≠ some 0) :
    adcPoll s =
      { s with
        pins := { s.pins with adcDoneAfter := s.pins.adcDoneAfter.map (· - 1) }
        lat := { s.lat with pollAnswer := false }
        out := s.out ++ [.adcPoll false] } := by
  have hd : s.pins.adcDone = false := beq_eq_false_iff_ne.mpr h
  simp [adcPoll, emit, hd, Pins.afterPoll]

/-- Settles O27: in a running block each command is its update, which writes the trace, the ADC's side, the ports and the
latches only. -/
theorem adcCommandsGoOutOnThePort : Obligations.AdcCommandsGoOutOnThePort := by
  intro s hh
  have running (r : Result) : unlessHalted s r = r := unlessHalted_running hh r
  exact ⟨running _, rfl, rfl, running _, rfl,
    fun h => (running _).trans (congrArg Host.Outcome.next (adcPoll_done h)),
    fun h => (running _).trans (congrArg Host.Outcome.next (adcPoll_notDone h)), rfl,
    fun h => (running _).trans (adcRead_next h), rfl⟩

/-- R23: the pin of an LED that is on stands at the active level. -/
theorem ledPin_of_on {s : State} (h : s.ledOn = true) : ledPin s = s.cfg.ledActiveHigh := by
  rw [ledPin, h]
  cases s.cfg.ledActiveHigh <;> rfl

/-- Settles O28: in a running block each command is its update of `led_on` and the trace, and the pin follows `led_on`. -/
theorem ledCommandsDriveThePin : Obligations.LedCommandsDriveThePin := by
  intro s hh
  exact ⟨⟨ledSet s, unlessHalted_running hh _, rfl, ledPin_of_on rfl, rfl⟩,
    ⟨ledClr s, unlessHalted_running hh _, rfl, ledPin_of_off rfl, rfl⟩⟩

/-! ### The cursor along a cycle of ticks -/

/-- How many ticks of a cycle come before a phase. -/
def ticksBeforePhase (c : Cfg) : Phase → Nat
  | .ledOnSettle => 0
  | .ledOnSample => c.settleTicks.toNat
  | .ledOff => c.settleTicks.toNat + c.sampleTicks.toNat

/-- Within a cycle R125's cursor has counted the ticks since its phase began. -/
theorem cursorAfter_of_lt {c : Cfg} {p : Phase} {t : Nat} (h : t < (bound c p).toNat) :
    cursorAfter c (ticksBeforePhase c p + t) = (p, t) := by
  cases p with
  | ledOnSettle | ledOnSample | ledOff =>
    simp only [bound] at h
    simp [cursorAfter, ticksBeforePhase, h, Nat.add_assoc]

/-- With the whole phase counted R125's cursor stands at the start of the next, after `LedOff` at the start of a cycle. -/
theorem cursorAfter_phase_end {c : Cfg} (hb : ∀ q, 0 < (bound c q).toNat) (p : Phase) :
    cursorAfter c (ticksBeforePhase c p + (bound c p).toNat) = (p.next, 0) := by
  cases p with
  | ledOnSettle => simpa [ticksBeforePhase, bound, Phase.next] using cursorAfter_of_lt (hb .ledOnSample)
  | ledOnSample => exact cursorAfter_of_lt (hb .ledOff)
  | ledOff =>
    have hpast {a b d : Nat} : ¬ a + b + d < a := by omega
    simp [cursorAfter, ticksBeforePhase, bound, Phase.next, hpast]

/-- Before the end of a cycle R125's cursor is below its bound and tells the number of ticks. -/
theorem eq_of_cursorAfter {c : Cfg} {p : Phase} {t n : Nat} (h : (p, t) = cursorAfter c n) (hn : n < c.cycleTicks) :
    t < (bound c p).toNat ∧ n = ticksBeforePhase c p + t := by
  rw [Cfg.cycleTicks] at hn
  simp only [cursorAfter] at h
  split_ifs at h
  all_goals
    obtain ⟨rfl, rfl⟩ := Prod.mk.inj h
    simp only [bound, ticksBeforePhase]
    omega

/-- R125's cursor moves as a tick moves the block's (R120). -/
theorem nextCursor_eq_cursorAfter {c : Cfg} {p : Phase} {t : Count} {n : Nat} (hb : ∀ q, 0 < (bound c q).toNat)
    (h : (p, t.toNat) = cursorAfter c n) (hn : n < c.cycleTicks) :
    ((nextCursor c p t).1, (nextCursor c p t).2.toNat) = cursorAfter c (n + 1) := by
  obtain ⟨hlt, rfl⟩ := eq_of_cursorAfter h hn
  rw [nextCursor_eq, Nat.add_assoc]
  split
  · rename_i hlast
    rw [hlast, cursorAfter_phase_end hb]
    rfl
  · rename_i hmore
    rw [cursorAfter_of_lt (by omega), count_succ_toNat hlt]

/-- The start of a cycle comes back at its end and no sooner (R125). -/
theorem cursorAfter_eq_start_iff {c : Cfg} {n : Nat} (hb : ∀ q, 0 < (bound c q).toNat) (hn : n ≤ c.cycleTicks) :
    cursorAfter c n = (.ledOnSettle, 0) ↔ n = 0 ∨ n = c.cycleTicks := by
  constructor
  · intro h
    rcases Nat.lt_or_eq_of_le hn with hlt | heq
    · exact .inl (eq_of_cursorAfter h.symm hlt).2
    · exact .inr heq
  · rintro (rfl | rfl)
    · exact cursorAfter_of_lt (p := .ledOnSettle) (hb _)
    · exact cursorAfter_phase_end hb .ledOff

theorem bound_pos_of_one_le {c : Cfg} (hsettle : 1 ≤ c.settleTicks.toNat) (hsample : 1 ≤ c.sampleTicks.toNat)
    (hoff : 1 ≤ c.offTicks.toNat) : ∀ q, 0 < (bound c q).toNat
  | .ledOnSettle => hsettle
  | .ledOnSample => hsample
  | .ledOff => hoff

/-- A block that runs under `c`, with the cursor of R125 after `n` ticks of a cycle. -/
structure InCycle (c : Cfg) (n : Nat) (s : State) : Prop where
  started : s.started = true
  running : s.halted = false
  cfg : s.cfg = c
  cursor : (s.phase, s.ticksInPhase.toNat) = cursorAfter c n

theorem InCycle.of_start {s : State} (hs : s.started = true) (hh : s.halted = false) (hp : s.phase = .ledOnSettle)
    (ht : s.ticksInPhase = 0) (hb : ∀ q, 0 < (bound s.cfg q).toNat) : InCycle s.cfg 0 s := by
  refine ⟨hs, hh, rfl, ?_⟩
  rw [hp, ht]
  exact ((cursorAfter_eq_start_iff hb (Nat.zero_le _)).mpr (.inl rfl)).symm

/-- A tick of a running block takes it one tick further along the cycle. -/
theorem InCycle.execTick {c : Cfg} {n : Nat} {s t : State} (h : InCycle c n s) (hb : ∀ q, 0 < (bound c q).toNat)
    (hn : n < c.cycleTicks) (ht : execTick s = .next t) : InCycle c (n + 1) t := by
  obtain ⟨hcfg, hhalt, hstart, hcur⟩ := execTick_frame ht
  obtain ⟨hphase, hticks⟩ := Prod.mk.inj (hcur h.running)
  refine ⟨hstart.trans h.started, hhalt.trans h.running, hcfg.trans h.cfg, ?_⟩
  rw [hphase, hticks, h.cfg]
  exact nextCursor_eq_cursorAfter hb h.cursor hn

/-- Where tick `n + 1` of a cycle stands: which ticks set the LED, sample, and clear the LED (R121, R122, R126). -/
theorem InCycle.position {c : Cfg} {n : Nat} {s : State} (h : InCycle c n s) (hb : ∀ q, 0 < (bound c q).toNat)
    (hn : n < c.cycleTicks) :
    (s.phase = .ledOnSettle ↔ n < c.settleTicks.toNat) ∧
    (s.phase = .ledOnSample ∧ s.ticksInPhase = 0 ↔ n = c.settleTicks.toNat) ∧
    (s.phase = .ledOnSample ∧ s.ticksInPhase.toNat + 1 = s.cfg.sampleTicks.toNat ↔
      n + 1 = c.settleTicks.toNat + c.sampleTicks.toNat) := by
  obtain ⟨hlt, hpos⟩ := eq_of_cursorAfter h.cursor hn
  have hsample : 0 < c.sampleTicks.toNat := hb .ledOnSample
  have hzero : s.ticksInPhase = 0 ↔ s.ticksInPhase.toNat = 0 := BitVec.toNat_inj.symm
  rw [h.cfg, hzero]
  cases hp : s.phase with
  | ledOnSettle | ledOnSample | ledOff =>
    simp only [hp, bound, ticksBeforePhase] at hlt hpos
    simp only [reduceCtorEq, true_iff, false_iff, true_and, false_and]
    omega

/-! ### What a tick emits, and does to the LED and the buffer -/

/-- How many of these commands took the trace from `o` to `o'`: `ADC.START`, `LED.SET`, `LED.CLR`, `ADC.READ`. -/
def Emits (o o' : List PortEvent) (starts sets clears reads : Nat) : Prop :=
  ∃ es, o' = o ++ es ∧ es.count .adcStart = starts ∧ es.count .ledSet = sets ∧ es.count .ledClr = clears ∧
    es.countP PortEvent.isRead = reads

theorem Emits.refl (o : List PortEvent) : Emits o o 0 0 0 0 := ⟨[], (List.append_nil o).symm, rfl, rfl, rfl, rfl⟩

theorem Emits.trans {o₁ o₂ o₃ : List PortEvent} {a b c d a' b' c' d' : Nat} (h : Emits o₁ o₂ a b c d)
    (h' : Emits o₂ o₃ a' b' c' d') : Emits o₁ o₃ (a + a') (b + b') (c + c') (d + d') := by
  obtain ⟨es, rfl, rfl, rfl, rfl, rfl⟩ := h
  obtain ⟨fs, rfl, rfl, rfl, rfl, rfl⟩ := h'
  exact ⟨es ++ fs, List.append_assoc _ _ _, List.count_append, List.count_append, List.count_append, List.countP_append⟩

/-- The buffer after a sample in which the ADC answers as on the ports `p` (R123). -/
def bufferAfterSample (m : Memory) (p : Pins) : Memory := if p.isDone = true then Memory.write m 0 p.adcResult else m

theorem read_bufferAfterSample {m : Memory} (h : Memory.wf m = true) (p : Pins) :
    Memory.read (bufferAfterSample m p) 0 = if p.isDone = true then p.adcResult else Memory.read m 0 := by
  rw [bufferAfterSample]
  split
  · exact ((Memory.write_zero h p.adcResult).2 0).trans (if_pos rfl)
  · rfl

/-- An ADC sample starts one conversion, and reads one answer and stores it where its outcome is `Done` (R123). -/
theorem adcSample_emits {s u : State} (h : adcSample s = .next u) :
    Emits s.out u.out 1 0 0 (if s.pins.isDone = true then 1 else 0) ∧ u.rawbuf = bufferAfterSample s.rawbuf s.pins := by
  rcases adcSample_cases s with ⟨k, hk, hlt⟩ | hto
  · have hd : s.pins.isDone = true := Pins.isDone_iff.mpr ⟨k, hk, hlt⟩
    by_cases hr : s.pins.adcResult.toNat ≤ s.cfg.adcMax.toNat
    · rw [adcSample_done hk hlt hr] at h
      obtain rfl := Host.Outcome.next.inj h
      rw [bufferAfterSample, if_pos hd, if_pos hd]
      exact ⟨⟨_, rfl, by simp [List.count_replicate, List.countP_replicate, PortEvent.isRead]⟩, rfl⟩
    · rw [adcSample_refused hk hlt (by omega)] at h
      cases h
  · have hd : ¬ s.pins.isDone = true := fun hd => by
      obtain ⟨k, hk, hlt⟩ := Pins.isDone_iff.mp hd
      exact absurd (hto k hk) (by omega)
    rw [adcSample_timeout hto] at h
    obtain rfl := Host.Outcome.next.inj h
    rw [bufferAfterSample, if_neg hd, if_neg hd]
    exact ⟨⟨_, rfl, by simp [List.count_replicate, List.countP_replicate, PortEvent.isRead]⟩, rfl⟩

/-- The end of a tick of `LedOnSample` emits one `LED.CLR` if it is the last (R122). -/
theorem sampleTickEnd_emits (s : State) :
    Emits s.out (sampleTickEnd s).out 0 0 (if lastTickOfPhase s = true then 1 else 0) 0 := by
  refine ⟨_, sampleTickEnd_out s, ?_⟩
  cases lastTickOfPhase s <;> decide

theorem lastTickOfPhase_sample {s : State} (hp : s.phase = .ledOnSample) :
    lastTickOfPhase s = true ↔ s.phase = .ledOnSample ∧ s.ticksInPhase.toNat + 1 = s.cfg.sampleTicks.toNat := by
  rw [lastTickOfPhase_eq, hp, bound, decide_eq_true_iff]
  simp

/-- What a running tick emits, by where it stands (R121 to R124). -/
theorem execTick_emits {s t : State} (hh : s.halted = false) (h : execTick s = .next t) :
    Emits s.out t.out (if s.phase = .ledOnSample ∧ s.ticksInPhase = 0 then 1 else 0)
      (if s.phase = .ledOnSettle then 1 else 0)
      (if s.phase = .ledOnSample ∧ s.ticksInPhase.toNat + 1 = s.cfg.sampleTicks.toNat then 1 else 0)
      (if (s.phase = .ledOnSample ∧ s.ticksInPhase = 0) ∧ s.pins.isDone = true then 1 else 0) := by
  rcases execTick_cases h with ⟨hh', _⟩ | ⟨_, hp, rfl⟩ | ⟨_, hp, hc, u, hu, rfl⟩ | ⟨_, hp, hc, rfl⟩ | ⟨_, hp, rfl⟩
  · rw [hh] at hh'; cases hh'
  · exact ⟨[.ledSet], rfl, by simp [hp, PortEvent.isRead]⟩
  · obtain ⟨hcfg, -, -, hphase, hticks, -⟩ := adcSample_keeps hu
    have hend := (adcSample_emits hu).1.trans (sampleTickEnd_emits u)
    simp only [lastTickOfPhase_sample (hphase.trans hp), hphase, hticks, hcfg] at hend
    simpa [hp, hc] using hend
  · have hend := sampleTickEnd_emits s
    simp only [lastTickOfPhase_sample hp] at hend
    simp only [hc, and_false, false_and, if_false]
    simpa [hp] using hend
  · simpa [hp] using Emits.refl s.out

/-- What a running tick does to the LED and the buffer, by where it stands (R121 to R124). -/
theorem execTick_led_rawbuf {s t : State} (hh : s.halted = false) (h : execTick s = .next t) :
    (t.ledOn =
      if s.phase = .ledOnSettle then true
      else if s.phase = .ledOnSample ∧ s.ticksInPhase.toNat + 1 = s.cfg.sampleTicks.toNat then false else s.ledOn) ∧
    t.rawbuf =
      if s.phase = .ledOnSample ∧ s.ticksInPhase = 0 then bufferAfterSample s.rawbuf s.pins else s.rawbuf := by
  rcases execTick_cases h with ⟨hh', _⟩ | ⟨_, hp, rfl⟩ | ⟨_, hp, hc, u, hu, rfl⟩ | ⟨_, hp, hc, rfl⟩ | ⟨_, hp, rfl⟩
  · rw [hh] at hh'; cases hh'
  · simp [hp]
  · obtain ⟨hcfg, -, -, hphase, hticks, hled⟩ := adcSample_keeps hu
    obtain ⟨-, hbuf⟩ := adcSample_emits hu
    simp [sampleTickEnd_ledOn, lastTickOfPhase_sample (hphase.trans hp), hphase, hticks, hcfg, hled, hbuf, hp, hc]
  · simp only [hc, and_false, if_false]
    simp [sampleTickEnd_ledOn, lastTickOfPhase_sample hp, hp]
  · simp [hp]

/-! ### A cycle of ticks from its start -/

/-- How many answers a sampling tick reads that the schedule presents, or has not yet presented. -/
def readsOf : Option Presentation → Nat
  | none => 0
  | some p => if p.pins.isDone = true then 1 else 0

/-- The buffer after a sampling tick that the schedule presents, or has not yet presented. -/
def bufferAfterTick (m : Memory) : Option Presentation → Memory
  | none => m
  | some p => bufferAfterSample m p.pins

/-- What the ticks `ps`, from the start of a cycle at `s`, have emitted, stored and left of the LED (R126, R127). -/
structure CycleTrace (s : State) (ps : List Presentation) (t : State) : Prop where
  emits : Emits s.out t.out (if s.cfg.settleTicks.toNat + 1 ≤ ps.length then 1 else 0)
    (min ps.length s.cfg.settleTicks.toNat)
    (if s.cfg.settleTicks.toNat + s.cfg.sampleTicks.toNat ≤ ps.length then 1 else 0)
    (readsOf ps[s.cfg.settleTicks.toNat]?)
  led : 1 ≤ ps.length → t.ledOn = decide (ps.length < s.cfg.settleTicks.toNat + s.cfg.sampleTicks.toNat)
  rawbuf : t.rawbuf = bufferAfterTick s.rawbuf ps[s.cfg.settleTicks.toNat]?

theorem CycleTrace.nil {s : State} (hb : ∀ q, 0 < (bound s.cfg q).toNat) : CycleTrace s [] s := by
  have hsettle : s.cfg.settleTicks.toNat ≠ 0 := (hb .ledOnSettle).ne'
  exact ⟨by simpa [readsOf, hsettle] using Emits.refl s.out, fun h => absurd h (by decide), rfl⟩

theorem getElem?_concat_of_ne {α : Type} {xs : List α} {x : α} {k : Nat} (h : xs.length ≠ k) :
    (xs ++ [x])[k]? = xs[k]? := by
  rw [List.getElem?_append]
  split
  · rfl
  · rw [List.getElem?_eq_none (by rw [List.length_singleton]; omega), List.getElem?_eq_none (by omega)]

/-- One more tick of the cycle. -/
theorem CycleTrace.concat {s t u : State} {ps rest : List Presentation} {p : Presentation} (h : CycleTrace s ps t)
    (hc : InCycle s.cfg ps.length t) (hb : ∀ q, 0 < (bound s.cfg q).toNat) (hn : ps.length < s.cfg.cycleTicks)
    (hu : execTick { t with pins := p.pins, program := rest } = .next u) : CycleTrace s (ps ++ [p]) u := by
  have hsettle : 0 < s.cfg.settleTicks.toNat := hb .ledOnSettle
  have hsample : 0 < s.cfg.sampleTicks.toNat := hb .ledOnSample
  have htick := execTick_emits (s := { t with pins := p.pins, program := rest }) hc.running hu
  obtain ⟨hled, hbuf⟩ := execTick_led_rawbuf (s := { t with pins := p.pins, program := rest }) hc.running hu
  obtain ⟨hset, hstart, hclear⟩ := hc.position hb hn
  simp only [hset, hstart, hclear] at htick hled hbuf
  have hlen : (ps ++ [p]).length = ps.length + 1 := List.length_append
  refine ⟨?_, fun _ => ?_, ?_⟩
  · convert h.emits.trans htick using 1
    · split_ifs <;> omega
    · split_ifs <;> omega
    · split_ifs <;> omega
    · by_cases heq : ps.length = s.cfg.settleTicks.toNat
      · simp [← heq, readsOf]
      · simp [getElem?_concat_of_ne heq, heq]
  · rw [hled, hlen]
    split_ifs with h1 h2
    · exact (decide_eq_true (by omega)).symm
    · exact (decide_eq_false (by omega)).symm
    · rw [h.led (by omega), decide_eq_decide]
      omega
  · rw [hbuf]
    by_cases heq : ps.length = s.cfg.settleTicks.toNat
    · simp [← heq, bufferAfterTick, h.rawbuf]
    · simp [getElem?_concat_of_ne heq, heq, h.rawbuf]

/-- The ticks of a cycle from its start, as many as are scheduled, complete, keep the cursor on R125's course, and emit, store
and leave the LED as R126 and R127 say; by induction on the ticks, the last one split off. -/
theorem stepN_cycle {s : State} {ps rest : List Presentation} (hc : InCycle s.cfg 0 s)
    (hb : ∀ q, 0 < (bound s.cfg q).toNat) (hprog : s.program = ps ++ rest) (hp : ∀ p ∈ ps, IsTick s.cfg p)
    (hlen : ps.length ≤ s.cfg.cycleTicks) :
    ∃ t, stepN ps.length s = .next t ∧ t.program = rest ∧ InCycle s.cfg ps.length t ∧ CycleTrace s ps t := by
  induction ps using List.reverseRecOn generalizing rest with
  | nil => exact ⟨s, rfl, hprog, hc, .nil hb⟩
  | append_singleton ps p ih =>
    rw [List.length_append, List.length_singleton] at hlen
    obtain ⟨t, ht, htprog, htc, htrace⟩ := ih (rest := p :: rest) (by rw [hprog, List.append_assoc]; rfl)
      (fun q hq => hp q (List.mem_append_left _ hq)) (by omega)
    have htick : IsTick t.cfg p := htc.cfg ▸ hp p (List.mem_append_right _ (List.mem_singleton_self p))
    have ⟨_, _, hadc⟩ := htick
    obtain ⟨u, hu⟩ := execTick_completes (s := { t with pins := p.pins, program := rest }) hadc
    have hin : InCycle s.cfg ps.length { t with pins := p.pins, program := rest } := { htc with }
    refine ⟨u, ?_, exec_program (i := .tick) hu, ?_, ?_⟩
    · rw [List.length_append, List.length_singleton, stepN_succ_last, ht, andThen_next,
        step_tick htprog htc.started htick, hu]
    · rw [List.length_append, List.length_singleton]
      exact hin.execTick hb (by omega) hu
    · exact htrace.concat htc hb (by omega) hu

/-- Settles O24: the cursor follows R125's, which is at the start of a cycle only before the first tick and after the last. -/
theorem cursorAlongACycle : Obligations.CursorAlongACycle := by
  intro s ps rest hs hh hsettle hsample hoff hphase hticks hprog hp hlen
  have hb := bound_pos_of_one_le hsettle hsample hoff
  obtain ⟨t, ht, htprog, htc, -⟩ := stepN_cycle (.of_start hs hh hphase hticks hb) hb hprog hp hlen
  refine ⟨t, ht, htprog, htc.cfg, htc.cursor, ?_⟩
  rw [← cursorAfter_eq_start_iff hb hlen, ← htc.cursor, Prod.mk.injEq]
  exact and_congr_right' BitVec.toNat_inj.symm

/-- Settles O25: the counts are those of the ticks so far, and the buffer holds what the sampling tick stored. -/
theorem cycleTriggersOnceAndPulsesTheLed : Obligations.CycleTriggersOnceAndPulsesTheLed := by
  intro s ps rest hs hh hm hsettle hsample hoff hphase hticks hprog hp hlen
  have hb := bound_pos_of_one_le hsettle hsample hoff
  obtain ⟨t, ht, -, -, ⟨es, hout, hstarts, hsets, hclears, hreads⟩, hled, hbuf⟩ :=
    stepN_cycle (.of_start hs hh hphase hticks hb) hb hprog hp hlen
  refine ⟨t, es, ht, hout, hstarts, hsets, hclears, hled, ?_⟩
  cases hsampling : ps[s.cfg.settleTicks.toNat]? with
  | none =>
    rw [hsampling] at hbuf hreads
    exact ⟨congrArg (Memory.read · 0) hbuf, hreads⟩
  | some p =>
    rw [hsampling] at hbuf hreads
    exact ⟨(congrArg (Memory.read · 0) hbuf).trans (read_bufferAfterSample hm p.pins), hreads⟩

end Sys2Proof.Machine

/-! The raw-sample buffer's operations, and `MEAS` as the sequence of micro-operations that reads the buffer
(41_raw_buffer_ops). -/

namespace Sys2Proof.Machine

/-! ### The micro-operations in a running block -/

theorem exec_wrraw_running {s : State} (hh : s.halted = false) : exec .wrraw s = .next (wrraw s) :=
  unlessHalted_running hh _

theorem exec_r2v_running {s : State} (hh : s.halted = false) :
    exec .r2v s = .next { s with lat := { s.lat with volt := r2v s.cfg s.lat.rawOut } } :=
  unlessHalted_running hh _

theorem exec_updb_running {s : State} (hh : s.halted = false) :
    exec .updb s = .next { s with baseline := updatedBaseline s.baseline s.lat.volt } :=
  unlessHalted_running hh _

theorem exec_v2d_running {s : State} (hh : s.halted = false) :
    exec .v2d s = .next { s with lat := { s.lat with dens := v2d s.baseline s.cfg.slopeFx s.lat.volt } } :=
  unlessHalted_running hh _

theorem exec_meas_running {s : State} (hh : s.halted = false) : exec .meas s = .next (takeMeasurement s) :=
  unlessHalted_running hh _

/-! ### `MEAS` is its micro-operations -/

/-- Settles O42: none of the micro-operations halts the block, so each finds in its latch what the one before it left
there; `V2D` reads the baseline that `UPDB` has lowered, as `MEAS` does. -/
theorem measIsItsMicroOperations : Obligations.MeasIsItsMicroOperations := by
  intro s hh
  exact ⟨_, _, _, _, _, rfl, exec_r2v_running hh, exec_updb_running hh, exec_v2d_running hh, exec_meas_running hh,
    rfl, rfl, rfl, rfl⟩

/-! ### `WRRAW` -/

/-- `MemWrite(0, 1, v)` leaves every other address of a canonical buffer (R62). -/
theorem Memory.read_write_of_ne {m : Memory} (h : Memory.wf m = true) (v : RawCode) {a : Nat} (ha : a ≠ 0) :
    Memory.read (Memory.write m 0 v) a = Memory.read m a :=
  ((Memory.write_zero h v).2 a).trans (if_neg ha)

/-- Settles O29: a running `WRRAW` is one write of the latch to the element. -/
theorem wrrawReplacesTheElement : Obligations.WrrawReplacesTheElement := by
  intro s hh hm
  exact ⟨wrraw s, exec_wrraw_running hh, rfl, memRead_memWrite hm _, fun _ ha => Memory.read_write_of_ne hm _ ha⟩

end Sys2Proof.Machine

/-! The converter and the baseline filter: what `R2V`, `UPDB` and `V2D` compute, the density of a `MEAS`, the baseline along
a run, and the widths that hold every result (42_conversion). -/

namespace Sys2Proof.Machine

/-! ### `R2V` -/

theorem r2v_adcMax {c : Cfg} (h : 1 ≤ c.adcMax.toNat) : r2v c c.adcMax = c.vccFx := by
  apply BitVec.eq_of_toNat_eq
  rw [r2v_toNat le_rfl h, Nat.mul_div_cancel_left _ h]

theorem r2v_le {c : Cfg} {r : RawCode} (h : 1 ≤ c.adcMax.toNat) (hr : r.toNat ≤ c.adcMax.toNat) :
    (r2v c r).toNat ≤ c.vccFx.toNat := by
  rw [r2v_toNat hr h]
  exact quotient_le hr

theorem r2v_mono {c : Cfg} {r₁ r₂ : RawCode} (h : 1 ≤ c.adcMax.toNat) (hr : r₁.toNat ≤ r₂.toNat)
    (hr₂ : r₂.toNat ≤ c.adcMax.toNat) : (r2v c r₁).toNat ≤ (r2v c r₂).toNat := by
  rw [r2v_toNat (hr.trans hr₂) h, r2v_toNat hr₂ h]
  exact Nat.div_le_div_right (Nat.mul_le_mul_right _ hr)

/-- From one raw code to the next the product grows by `VCC_FX`, here at least the divisor, so the quotient grows too. -/
theorem r2v_strictMono {c : Cfg} {r₁ r₂ : RawCode} (h : 1 ≤ c.adcMax.toNat) (hv : c.adcMax.toNat ≤ c.vccFx.toNat)
    (hr : r₁.toNat < r₂.toNat) (hr₂ : r₂.toNat ≤ c.adcMax.toNat) : (r2v c r₁).toNat < (r2v c r₂).toNat := by
  rw [r2v_toNat (hr.le.trans hr₂) h, r2v_toNat hr₂ h, ← Nat.add_one_le_iff, ← Nat.add_div_right _ h]
  apply Nat.div_le_div_right
  calc r₁.toNat * c.vccFx.toNat + c.adcMax.toNat ≤ (r₁.toNat + 1) * c.vccFx.toNat := by rw [Nat.add_one_mul]; omega
    _ ≤ r₂.toNat * c.vccFx.toNat := Nat.mul_le_mul_right _ hr

/-- With `VCC_FX` below `ADC_MAX` the raw code 1 still gives 0. -/
theorem r2v_one_of_lt {c : Cfg} (hv : c.vccFx.toNat < c.adcMax.toNat) : r2v c 1 = 0 := by
  have h : 1 ≤ c.adcMax.toNat := by omega
  apply BitVec.eq_of_toNat_eq
  rw [r2v_toNat (raw := 1) h h]
  simpa using Nat.div_eq_of_lt hv

/-- Settles O33: monotone because the floor is, strictly where the numerator's steps are at least the divisor; where
`VCC_FX` is less the raw codes 0 and 1 both give 0. -/
theorem voltageProperties : Obligations.VoltageProperties := by
  intro c h
  refine ⟨r2v_zero h, r2v_adcMax h, fun r₁ r₂ => r2v_mono h, fun hv r₁ r₂ => r2v_strictMono h hv, fun hv => ?_,
    fun hv r hr => ?_, fun r => r2v_le h⟩
  · exact ⟨0, 1, by decide, h, (r2v_zero h).trans (r2v_one_of_lt hv).symm⟩
  · have hle := r2v_le h hr
    rw [hv] at hle
    exact BitVec.eq_of_toNat_eq (Nat.le_zero.mp hle)

/-- Settles O34: the floor of the exact quotient, over `VSCALE`. -/
theorem voltageIsTheRealOneRoundedDown : Obligations.VoltageIsTheRealOneRoundedDown := by
  intro c raw h hr V
  have hV : V = ((raw.toNat * c.vccFx.toNat : ℕ) : ℚ) / c.adcMax.toNat / Config.vscale := by
    simp only [V]
    push_cast
    ring
  have hmax : (c.adcMax.toNat : ℚ) ≠ 0 := Nat.cast_ne_zero.mpr (by omega)
  rw [hV, voltsOf, r2v_toNat hr h]
  generalize raw.toNat * c.vccFx.toNat = a
  refine ⟨?_, ?_, fun hdvd => ?_⟩
  · exact div_le_div_of_nonneg_right Nat.cast_div_le vscale_pos.le
  · apply div_lt_div_of_pos_right _ vscale_pos
    rw [← Nat.floor_div_eq_div (K := ℚ)]
    exact Nat.lt_floor_add_one _
  · rw [Nat.cast_div hdvd hmax]

/-- Outside its contract `R2V` gives the free value (R162, log 10). -/
theorem r2v_out_of_contract {c : Cfg} {raw : RawCode} (h : c.adcMax.toNat < raw.toNat ∨ c.adcMax = 0) :
    r2v c raw = Config.undefinedVoltage raw c.vccFx c.adcMax := by
  refine if_neg fun ⟨hr, hm⟩ => ?_
  rcases h with h | h
  · omega
  · rw [h] at hm
    exact absurd hm (by decide)

/-- Settles O32: a running `R2V` holds the quotient, which is exact in contract. -/
theorem r2vFloorsTheExactQuotient : Obligations.R2vFloorsTheExactQuotient := fun _ hh hr hm =>
  ⟨_, exec_r2v_running hh, r2v_toNat hr hm⟩

/-! ### `UPDB` and `V2D` -/

/-- Settles O35: a running `UPDB` writes the updated baseline, which is a minimum. -/
theorem updbTakesTheMinimum : Obligations.UpdbTakesTheMinimum := fun _ hh =>
  ⟨_, exec_updb_running hh, updatedBaseline_toNat _ _⟩

theorem v2d_of_le {b v : Volt} (slope : Slope) (h : v.toNat ≤ b.toNat) : v2d b slope v = 0 := by
  apply BitVec.eq_of_toNat_eq
  rw [v2d_toNat, Nat.sub_eq_zero_of_le h, Nat.zero_mul]
  rfl

/-- Settles O36: a running `V2D` holds the saturating excess times the slope. -/
theorem v2dScalesTheExcess : Obligations.V2dScalesTheExcess := fun s hh =>
  ⟨_, exec_v2d_running hh, fun h => congrArg BitVec.toNat (v2d_of_le s.cfg.slopeFx h), fun _ => v2d_toNat _ _ _⟩

theorem v2d_mono {v₁ v₂ : Volt} (b : Volt) (slope : Slope) (h : v₁.toNat ≤ v₂.toNat) :
    (v2d b slope v₁).toNat ≤ (v2d b slope v₂).toNat := by
  rw [v2d_toNat, v2d_toNat]
  exact Nat.mul_le_mul_right _ (Nat.sub_le_sub_right h _)

theorem v2d_strictMono {b v₁ v₂ : Volt} {slope : Slope} (hs : 1 ≤ slope.toNat) (hb : b.toNat ≤ v₁.toNat)
    (h : v₁.toNat < v₂.toNat) : (v2d b slope v₁).toNat < (v2d b slope v₂).toNat := by
  rw [v2d_toNat, v2d_toNat]
  exact Nat.mul_lt_mul_of_pos_right (by omega) hs

/-- Settles O37: the excess is 0 up to the baseline and grows with the voltage above it. -/
theorem densityProperties : Obligations.DensityProperties := fun b slope hs =>
  ⟨fun _ => v2d_of_le slope, fun _ _ => v2d_strictMono hs, fun _ _ _ hv => ⟨v2d_mono b slope hv, v2d_toNat _ _ _⟩⟩

/-! ### `MEAS` -/

/-- R164: a measurement takes the minimum of the baseline and its voltage. -/
theorem takeMeasurement_baseline_toNat (s : State) :
    (takeMeasurement s).baseline.toNat = min s.baseline.toNat (takeMeasurement s).measVoltage.toNat :=
  updatedBaseline_toNat _ _

/-- R180: its density is against the baseline that it leaves. -/
theorem takeMeasurement_measDensity_toNat (s : State) :
    (takeMeasurement s).measDensity.toNat =
      ((takeMeasurement s).measVoltage.toNat - (takeMeasurement s).baseline.toNat) * s.cfg.slopeFx.toNat :=
  v2d_toNat _ _ _

/-- Settles O40: neither `R2V` nor `MEAS` tests the contract; the voltage is the free value, and baseline and density are
computed from it. -/
theorem outOfContractVoltageIsFree : Obligations.OutOfContractVoltageIsFree := by
  intro s hh
  constructor
  · intro h
    rw [exec_r2v_running hh, r2v_out_of_contract h]
  · intro h
    exact ⟨_, _, _, exec_meas_running hh, r2v_out_of_contract h, updatedBaseline_toNat _ _, v2d_toNat _ _ _⟩

/-- Settles O41: the new baseline is the minimum of the old one and the voltage, so the excess over it is the excess over
the old one, or 0. -/
theorem measDensityAgainstTheOldBaseline : Obligations.MeasDensityAgainstTheOldBaseline := by
  intro s t hh h
  obtain rfl := eq_of_unlessHalted_running hh h
  have hb := takeMeasurement_baseline_toNat s
  refine ⟨hb ▸ Nat.min_le_right _ _, ?_⟩
  rw [takeMeasurement_measDensity_toNat, hb]
  split
  · rename_i hle
    rw [Nat.min_eq_right hle, Nat.sub_self, Nat.zero_mul]
  · rename_i hgt
    rw [Nat.min_eq_left (by omega)]

/-! ### The baseline is the running minimum -/

/-- The lesser of a number and all the voltages of a list (R165). -/
def minVoltage (b : Nat) (vs : List Volt) : Nat := vs.foldl (fun b v => min b v.toNat) b

theorem minVoltage_append (b : Nat) (vs ws : List Volt) :
    minVoltage b (vs ++ ws) = minVoltage (minVoltage b vs) ws := List.foldl_append

theorem minVoltage_le (b : Nat) (vs : List Volt) : minVoltage b vs ≤ b := by
  induction vs generalizing b with
  | nil => exact le_rfl
  | cons v vs ih => exact (ih _).trans (Nat.min_le_left _ _)

/-- The voltages of the next step come before those of the others. -/
theorem measuredVoltages_succ {s t : State} (n : Nat) (h : step s = .next t) :
    measuredVoltages (n + 1) s = measuredVoltages 1 s ++ measuredVoltages n t := by
  simp only [measuredVoltages, h, List.append_nil]

/-- On the `op` input the next step measures exactly if it executes a `MEAS` in a running block. -/
theorem measuresNext_eq {s : State} {i : Instr} (hvia : OnOpInput s)
    (h : accept s.started (currentPresentation s) = .ok i) : measuresNext s = (!s.halted && i == .meas) := by
  have hword : (encode i == encode .meas) = (i == .meas) := by cases i <;> rfl
  have hop : (currentPresentation s).via = .opInput := hvia
  rw [measuresNext, hop, accept_word_eq h, hword]
  simp

/-- The one voltage of a step that measures, if it does. -/
theorem measuredVoltages_one {s t : State} (h : step s = .next t) :
    measuredVoltages 1 s = if measuresNext s then [r2v s.cfg (memRead s)] else [] := by
  simp only [measuredVoltages, h, List.append_nil]

/-- Of the external operations but `RESET` only a running `MEAS` writes the baseline. -/
theorem baseline_step {s t : State} (hp : IsOrdinary (currentPresentation s)) (h : step s = .next t) :
    t.baseline.toNat = minVoltage s.baseline.toNat (measuredVoltages 1 s) := by
  obtain ⟨i, hacc, hexec⟩ := step_eq_next h
  obtain ⟨hvia, hword⟩ := hp
  rw [measuredVoltages_one h, measuresNext_eq hvia hacc]
  by_cases hi : i = .meas
  · subst hi
    rcases unlessHalted_eq_next hexec with ⟨(hh : s.halted = true), rfl⟩ | ⟨(hh : s.halted = false), ht⟩
    · rw [hh]; rfl
    · obtain rfl := Host.Outcome.next.inj ht
      rw [hh]
      exact takeMeasurement_baseline_toNat (fetched s)
  · have hext := accept_opInput_external hvia hacc
    have hupdb : i ≠ .updb := fun h => by rw [h] at hext; cases hext
    have hreset : i ≠ .reset := fun h => hword (h ▸ accept_word_eq hacc)
    obtain ⟨-, -, -, hbase, -⟩ := onlyOwnersWriteARegister i _ _ hexec
    rw [hbase (by simp [hi, hupdb, hreset])]
    simp [hi, minVoltage]

/-- R165 for a run of any length. -/
theorem baseline_stepN {n : Nat} {s t : State} (hp : ∀ p ∈ s.program, IsOrdinary p) (h : stepN n s = .next t) :
    t.baseline.toNat = minVoltage s.baseline.toNat (measuredVoltages n s) := by
  induction n generalizing s with
  | zero => cases h; rfl
  | succ n ih =>
    obtain ⟨u, hu, ht⟩ := andThen_eq_next h
    have hrest : ∀ p ∈ u.program, IsOrdinary p := fun p hmem => hp p (List.mem_of_mem_tail (step_program hu ▸ hmem))
    rw [measuredVoltages_succ n hu, minVoltage_append, ← baseline_step (currentPresentation_ordinary hp) hu]
    exact ih hrest ht

theorem baseline_of_reset {r s : State} (h : exec .reset r = .next s) :
    s.baseline = (unpackCfg r.pins.cfgIn).base0Fx := by
  rw [execReset_eq] at h
  obtain rfl := Host.Outcome.next.inj h
  rfl

/-- Settles O45: each step takes the minimum with the voltage it measures, if any, by induction on the number of steps; a
`RESET` leaves `BASE0_FX`. -/
theorem baselineIsTheRunningMinimum : Obligations.BaselineIsTheRunningMinimum := by
  intro n s t hp h
  have hmin := baseline_stepN hp h
  refine ⟨hmin, hmin ▸ minVoltage_le _ _, fun r hr => ?_⟩
  rw [← baseline_of_reset hr]
  exact hmin

/-! ### The widths -/

/-- A product fits a width that holds the widths of both its factors. -/
theorem toNat_setWidth_mul_setWidth {n m w : Nat} (x : BitVec n) (y : BitVec m) (h : n + m ≤ w) :
    (x.setWidth w * y.setWidth w).toNat = x.toNat * y.toNat := by
  have hprod : x.toNat * y.toNat < 2 ^ w :=
    calc x.toNat * y.toNat < 2 ^ n * 2 ^ m := Nat.mul_lt_mul'' x.isLt y.isLt
      _ = 2 ^ (n + m) := (pow_add 2 n m).symm
      _ ≤ 2 ^ w := Nat.pow_le_pow_right two_pos h
  have hx : (x.setWidth w).toNat = x.toNat := BitVec.toNat_setWidth_of_le (by omega)
  have hy : (y.setWidth w).toNat = y.toNat := BitVec.toNat_setWidth_of_le (by omega)
  rw [BitVec.toNat_mul_of_lt (by rwa [hx, hy]), hx, hy]

/-- Below its bound a counter's 16-bit increment and compare are exact (R120). -/
theorem nextCursor_eq_of_lt {c : Cfg} {p : Phase} {t : Count} (h : t.toNat < (bound c p).toNat) :
    nextCursor c p t = if t + 1 = bound c p then (p.next, 0) else (p, t + 1) := by
  have hlast : t + 1 = bound c p ↔ t.toNat + 1 = (bound c p).toNat := by
    rw [← BitVec.toNat_inj, count_succ_toNat h]
  rw [nextCursor_eq]
  simp only [hlast]

theorem nextCursor_count_toNat {c : Cfg} {p : Phase} {t : Count} (h : t.toNat < (bound c p).toNat) :
    (nextCursor c p t).2.toNat = if t.toNat + 1 = (bound c p).toNat then 0 else t.toNat + 1 := by
  rw [nextCursor_eq]
  split
  · rfl
  · exact count_succ_toNat h

/-- In contract the 48-bit product and the quotient's low 32 bits are exact (R160). -/
theorem r2v_eq_setWidth {c : Cfg} {raw : RawCode} (h : raw.toNat ≤ c.adcMax.toNat) (hm : 1 ≤ c.adcMax.toNat) :
    r2v c raw = (raw.setWidth 48 * c.vccFx.setWidth 48 / c.adcMax.setWidth 48).setWidth 32 := by
  apply BitVec.eq_of_toNat_eq
  rw [BitVec.toNat_setWidth, BitVec.toNat_udiv, toNat_setWidth_mul_setWidth _ _ (by decide),
    BitVec.toNat_setWidth_of_le (by decide), r2v_toNat h hm]
  exact (Nat.mod_eq_of_lt (lt_of_le_of_lt (quotient_le h) c.vccFx.isLt)).symm

/-- A subtraction guarded by the compare does not wrap, and is the saturating difference (R168). -/
theorem toNat_saturatingSub {w : Nat} (x y : BitVec w) : (if x ≤ y then 0 else x - y).toNat = x.toNat - y.toNat := by
  split
  · rename_i h
    exact (Nat.sub_eq_zero_of_le (BitVec.le_def.mp h)).symm
  · rename_i h
    exact BitVec.toNat_sub_of_le (BitVec.le_of_lt (BitVec.not_le.mp h))

/-- The 64-bit product of the difference is exact (R168). -/
theorem v2d_eq_setWidth (b : Volt) (slope : Slope) (v : Volt) :
    v2d b slope v = (if v ≤ b then 0 else v - b).setWidth 64 * slope.setWidth 64 := by
  apply BitVec.eq_of_toNat_eq
  rw [v2d_toNat, toNat_setWidth_mul_setWidth _ _ (by decide), toNat_saturatingSub]

/-- The length of a cycle as 50-bit arithmetic gives it (R200). -/
def cycleNs50 (c : Cfg) : BitVec 50 :=
  (c.settleTicks.setWidth 50 + c.sampleTicks.setWidth 50 + c.offTicks.setWidth 50) * c.tickNs.setWidth 50

/-- The sum of three 16-bit counts has 18 bits, its product with the 32-bit period 50. -/
theorem cycleNs50_toNat (c : Cfg) : (cycleNs50 c).toNat = cycleNs c := by
  have hsum : c.settleTicks.setWidth 50 + c.sampleTicks.setWidth 50 + c.offTicks.setWidth 50 =
      (BitVec.ofNat 18 (c.settleTicks.toNat + c.sampleTicks.toNat + c.offTicks.toNat)).setWidth 50 := by bv_omega
  rw [cycleNs50, hsum, toNat_setWidth_mul_setWidth _ _ (by decide), BitVec.toNat_ofNat, cycleNs]
  congr 1
  omega

/-- The required period in 50 bits (R200). -/
def periodReqNs50 : BitVec 50 := BitVec.ofNat 50 Config.periodReqNs

theorem periodReqNs50_toNat : periodReqNs50.toNat = Config.periodReqNs := by decide

/-- The distance from the required period as 50-bit arithmetic gives it (R200). -/
theorem periodDiff_eq_toNat (c : Cfg) :
    periodDiff c =
      (if periodReqNs50 ≤ cycleNs50 c then cycleNs50 c - periodReqNs50 else periodReqNs50 - cycleNs50 c).toNat := by
  have hreq := periodReqNs50_toNat
  have hle : periodReqNs50 ≤ cycleNs50 c ↔ Config.periodReqNs ≤ cycleNs c := by
    rw [BitVec.le_def, hreq, cycleNs50_toNat]
  rw [periodDiff]
  simp only [hle, ge_iff_le]
  split
  · rename_i h
    rw [BitVec.toNat_sub_of_le (hle.mpr h), hreq, cycleNs50_toNat]
  · rename_i h
    rw [BitVec.toNat_sub_of_le (BitVec.le_of_lt (BitVec.not_le.mp (hle.not.mpr h))), hreq, cycleNs50_toNat]

/-- Settles O57: the invariant keeps the counter below its bound and the raw code in contract; the other operations fit
their widths whatever the state. -/
theorem arithmeticFitsItsWidths : Obligations.ArithmeticFitsItsWidths := by
  intro s hinv hs hh
  have h := hinv.runningInv hs hh
  have hmax := adcMax_pos_of_valid h.valid
  refine ⟨⟨nextCursor_eq_of_lt h.cursor, nextCursor_count_toNat h.cursor⟩,
    ⟨r2v_eq_setWidth h.raw hmax, r2v_toNat h.raw hmax⟩, fun v => ⟨rfl, v2d_eq_setWidth _ _ _, v2d_toNat _ _ _⟩,
    ⟨cycleNs50_toNat s.cfg, ?_⟩, takeMeasurement s, exec_meas_running hh, BitVec.toNat_add _ _⟩
  rw [errPeriod, periodDiff_eq_toNat]
  rfl

end Sys2Proof.Machine

/-! The measurement sequencer: what one `MEAS` publishes and what a second one on the same sample changes
(43_orchestrator). -/

namespace Sys2Proof.Machine

/-- Settles O39: in contract the voltage of a running `MEAS` is the exact quotient; the baseline, the density and the number
are as after any measurement. -/
theorem measPublishesAMeasurement : Obligations.MeasPublishesAMeasurement := by
  intro s hh hr hm
  exact ⟨_, _, _, _, exec_meas_running hh, r2v_toNat hr hm, takeMeasurement_baseline_toNat s,
    takeMeasurement_measDensity_toNat s, BitVec.toNat_add _ _⟩

/-- R164: a second `UPDB` of the same voltage finds it at or above the baseline. -/
theorem updatedBaseline_idem (b v : Volt) : updatedBaseline (updatedBaseline b v) v = updatedBaseline b v := by
  apply BitVec.eq_of_toNat_eq
  rw [updatedBaseline_toNat, updatedBaseline_toNat, min_assoc, min_self]

/-- R184: the second measurement reads the same sample, so its voltage is the same; the baseline has taken that voltage into
account already, so the density is the same too. -/
theorem takeMeasurement_takeMeasurement (s : State) :
    takeMeasurement (takeMeasurement s) = { takeMeasurement s with measSeq := (takeMeasurement s).measSeq + 1 } := by
  have hraw : memRead (takeMeasurement s) = memRead s := rfl
  have hvolt : r2v (takeMeasurement s).cfg (memRead s) = r2v s.cfg (memRead s) := rfl
  have hbase : updatedBaseline (takeMeasurement s).baseline (r2v s.cfg (memRead s)) = (takeMeasurement s).baseline :=
    updatedBaseline_idem _ _
  rw [takeMeasurement, hraw, hvolt, hbase]
  rfl

/-- Settles O43: `MEAS` does not halt the block, so the second one measures, and repeats the first but for the number. -/
theorem repeatedMeasDiffersOnlyInSeq : Obligations.RepeatedMeasDiffersOnlyInSeq := by
  intro s hh
  have hrunning : (takeMeasurement s).halted = false := hh
  exact ⟨_, _, exec_meas_running hh, exec_meas_running hrunning, takeMeasurement_takeMeasurement s⟩

end Sys2Proof.Machine

/-! The system operations: `IDLE` in any block, halted or not (44_system). -/

namespace Sys2Proof.Machine

/-- R198: `IDLE` has no guard on `halted` and writes no register, latch or trace. -/
@[simp] theorem exec_idle (s : State) : exec .idle s = .next s := rfl

/-- Settles O47: the equation of `IDLE`. -/
theorem idleChangesNothing : Obligations.IdleChangesNothing := exec_idle

end Sys2Proof.Machine

/-! The exception and the bounded operations: the causes of a `RESET`, what a halted block does, what a timeout leaves, and
that no operation can be stuck (60_exceptions). -/

namespace Sys2Proof.Machine

/-! ### The causes of a `RESET` -/

/-- R211: the place of each check among the cause bits. -/
theorem getLsbD_validate (c : Cfg) :
    (validate c).getLsbD 0 = errSampleZero c ∧ (validate c).getLsbD 1 = errPhaseZero c ∧
      (validate c).getLsbD 2 = errPeriod c ∧ (validate c).getLsbD 3 = errAdcMaxZero c ∧
      (validate c).getLsbD 4 = errSlopeZero c := by
  have bits : ∀ slope adc period phase sample : Bool,
      let w := BitVec.ofBool slope ++ BitVec.ofBool adc ++ BitVec.ofBool period ++ BitVec.ofBool phase ++
        BitVec.ofBool sample
      w.getLsbD 0 = sample ∧ w.getLsbD 1 = phase ∧ w.getLsbD 2 = period ∧ w.getLsbD 3 = adc ∧ w.getLsbD 4 = slope := by
    decide
  exact bits _ _ _ _ _

theorem beq_zero_iff_toNat {w : Nat} {x : BitVec w} : (x == 0) = true ↔ x.toNat = 0 := by
  simp [← BitVec.toNat_inj]

/-- R200: the period check fails when the cycle's length is off by more than the tolerance. -/
theorem errPeriod_iff (c : Cfg) :
    errPeriod c = true ↔
      (Config.periodTolNs : ℤ) <
        |((c.settleTicks.toNat + c.sampleTicks.toNat + c.offTicks.toNat) * c.tickNs.toNat : ℤ) -
          Config.periodReqNs| := by
  rw [← periodDiff_cast, errPeriod, decide_eq_true_iff, Nat.cast_lt]

/-- Settles O12: `RESET` latches the causes of the configuration it latches, one bit for each check. -/
theorem eachCauseBitIsItsCheck : Obligations.EachCauseBitIsItsCheck := by
  intro s
  refine ⟨_, execReset_eq s, ?_⟩
  obtain ⟨hsample, hphase, hperiod, hadc, hslope⟩ := getLsbD_validate (resetOperand s)
  refine ⟨?_, ?_, ?_, ?_, ?_⟩
  · exact hsample ▸ beq_zero_iff_toNat
  · exact hphase ▸ (Bool.or_eq_true_iff.trans (or_congr beq_zero_iff_toNat beq_zero_iff_toNat))
  · exact hperiod ▸ errPeriod_iff (resetOperand s)
  · exact hadc ▸ beq_zero_iff_toNat
  · exact hslope ▸ beq_zero_iff_toNat

/-! ### What a `RESET` forgets -/

/-- Settles O14: what `RESET` leaves in each register is a function of its operand; the buffers are canonical and both hold
0, so they are the same. -/
theorem resetForgetsTheStateBefore : Obligations.ResetForgetsTheStateBefore := by
  intro s s' hm hm' hcfg
  have hop : resetOperand s' = resetOperand s := congrArg unpackCfg hcfg.symm
  have hbuf : Memory.write s'.rawbuf 0 0 = Memory.write s.rawbuf 0 0 :=
    Memory.wf_ext (Memory.write_zero hm' 0).1 (Memory.write_zero hm 0).1
      ((memRead_memWrite hm' 0).trans (memRead_memWrite hm 0).symm)
  refine ⟨_, _, execReset_eq s, execReset_eq s', ?_⟩
  rw [hop]
  exact
    { phase := rfl, ticksInPhase := rfl, ledOn := rfl, rawbuf := hbuf, baseline := rfl, measRaw := rfl,
      measVoltage := rfl, measDensity := rfl, measSeq := rfl, ready := rfl, halted := rfl, cfgErr := rfl, cfg := rfl }

/-! ### The halted block -/

/-- R185(c), R214: the record of a block whose measurement registers are at their reset values. -/
theorem measRecord_of_reset_values {s : State} (hready : s.ready = false) (hraw : s.measRaw = 0)
    (hvolt : s.measVoltage = 0) (hdens : s.measDensity = 0) (hseq : s.measSeq = 0) : measRecord s = 0 := by
  rw [measRecord, hready, hraw, hvolt, hdens, hseq]
  decide

/-- Settles O15: the guard on `halted` stops `TICK` and `MEAS`; the registers that `RDRAW`, `TAKE` and the pins show are at
their reset values. -/
theorem haltedBlockIsInert : Obligations.HaltedBlockIsInert := by
  intro s h hs hh
  obtain ⟨-, -, hled, hmem, -, hraw, hvolt, hdens, hseq, hready⟩ := h.halted hs hh
  obtain ⟨hcause, hhalt⟩ := h.fault hs
  have hrdraw : exec .rdraw s =
      .next { s with lat := { s.lat with rawOut := memRead s }, out := s.out ++ [.rdraw (memRead s)] } := rfl
  have htake : exec .take s =
      .next { s with ready := false, lat := { s.lat with measOut := measRecord s },
                     out := s.out ++ [.take (measRecord s)] } := rfl
  rw [hmem] at hrdraw
  rw [measRecord_of_reset_values hready hraw hvolt hdens hseq, ← hready] at htake
  exact ⟨unlessHalted_halted hh _, unlessHalted_halted hh _, exec_idle s, hrdraw, htake, hready, hled, ledPin_of_off hled,
    hh, hcause, hhalt.mp hh⟩

/-! ### A timeout against an answer -/

/-- R213: a tick leaves the buffer where the ADC does not answer done in time. -/
theorem execTick_rawbuf_of_not_isDone {s t : State} (hd : s.pins.isDone = false) (h : execTick s = .next t) :
    t.rawbuf = s.rawbuf := by
  cases hh : s.halted with
  | true => rw [eq_of_unlessHalted_halted hh h]
  | false =>
    obtain ⟨-, hbuf⟩ := execTick_led_rawbuf hh h
    rw [hbuf, bufferAfterSample, hd]
    simp

/-- R213, R34: whatever the ADC answers, a tick leaves the same in every register but the buffer. -/
theorem execTick_registers_of_pins {s t u : State} {p : Pins} (ht : execTick s = .next t)
    (hu : execTick { s with pins := p } = .next u) : SameRegisters { u with rawbuf := t.rawbuf } t := by
  cases hh : s.halted with
  | true =>
    rw [eq_of_unlessHalted_halted hh ht, eq_of_unlessHalted_halted (s := { s with pins := p }) hh hu]
    exact { SameRegisters.refl s with }
  | false =>
    obtain ⟨tcfg, thalt, -, tcursor⟩ := execTick_frame ht
    obtain ⟨ucfg, uhalt, -, ucursor⟩ := execTick_frame hu
    obtain ⟨tbase, ⟨traw, tvolt, tdens, tseq⟩, tready, tcause⟩ := execTick_leaves_main ht
    obtain ⟨ubase, ⟨uraw, uvolt, udens, useq⟩, uready, ucause⟩ := execTick_leaves_main hu
    obtain ⟨tled, -⟩ := execTick_led_rawbuf hh ht
    obtain ⟨uled, -⟩ := execTick_led_rawbuf (s := { s with pins := p }) hh hu
    obtain ⟨hphase, hticks⟩ := Prod.mk.inj ((tcursor hh).trans (ucursor hh).symm)
    exact
      { phase := hphase, ticksInPhase := hticks
        ledOn := tled.trans uled.symm
        rawbuf := rfl
        baseline := tbase.trans ubase.symm
        measRaw := traw.trans uraw.symm, measVoltage := tvolt.trans uvolt.symm
        measDensity := tdens.trans udens.symm, measSeq := tseq.trans useq.symm
        ready := tready.trans uready.symm, halted := thalt.trans uhalt.symm
        cfgErr := tcause.trans ucause.symm, cfg := tcfg.trans ucfg.symm }

/-- Settles O23: a timeout asks the ADC for no result, so it is in its contract; it leaves the buffer, and every other
register is the same whatever the ADC answers. -/
theorem timeoutTouchesNoRegister : Obligations.TimeoutTouchesNoRegister := by
  intro s p hs hp hr
  obtain ⟨t, ht⟩ := execTick_completes (s := s) fun hd => by rw [hs] at hd; cases hd
  obtain ⟨u, hu⟩ := execTick_completes (s := { s with pins := p }) fun _ => hr
  have hbuf := execTick_rawbuf_of_not_isDone hs ht
  exact ⟨t, u, ht, hu, congrArg (Memory.read · 0) hbuf, hbuf ▸ execTick_registers_of_pins ht hu⟩

/-! ### No operation can be stuck -/

/-- The trace grew from `o` to `o'` by events of which at most `n` are polls of the ADC. -/
def PollsAtMost (n : Nat) (o o' : List PortEvent) : Prop := ∃ es, o' = o ++ es ∧ es.countP PortEvent.isPoll ≤ n

theorem PollsAtMost.refl (n : Nat) (o : List PortEvent) : PollsAtMost n o o :=
  ⟨[], (List.append_nil o).symm, Nat.zero_le n⟩

theorem PollsAtMost.trans {n m : Nat} {o₁ o₂ o₃ : List PortEvent} (h : PollsAtMost n o₁ o₂) (h' : PollsAtMost m o₂ o₃) :
    PollsAtMost (n + m) o₁ o₃ := by
  obtain ⟨es, rfl, hes⟩ := h
  obtain ⟨fs, rfl, hfs⟩ := h'
  exact ⟨es ++ fs, List.append_assoc _ _ _, by rw [List.countP_append]; omega⟩

/-- R123: the busy-wait of a sample is bounded, whatever its outcome. -/
theorem adcSample_polls {s u : State} (h : adcSample s = .next u) : PollsAtMost Config.adcPollMax s.out u.out := by
  rcases adcSample_cases s with ⟨k, hk, hlt⟩ | hto
  · by_cases hr : s.pins.adcResult.toNat ≤ s.cfg.adcMax.toNat
    · rw [adcSample_done hk hlt hr] at h
      obtain rfl := Host.Outcome.next.inj h
      refine ⟨_, rfl, ?_⟩
      simp only [List.countP_append, List.countP_replicate, List.countP_cons, List.countP_nil, PortEvent.isPoll, if_true,
        Bool.false_eq_true, if_false]
      omega
    · rw [adcSample_refused hk hlt (by omega)] at h
      cases h
  · rw [adcSample_timeout hto] at h
    obtain rfl := Host.Outcome.next.inj h
    refine ⟨_, rfl, ?_⟩
    simp [List.countP_replicate, PortEvent.isPoll]

theorem sampleTickEnd_polls (s : State) : PollsAtMost 0 s.out (sampleTickEnd s).out := by
  refine ⟨_, sampleTickEnd_out s, ?_⟩
  cases lastTickOfPhase s <;> decide

/-- R227: a tick polls the ADC at most `ADC_POLL_MAX` times, all of them in its sample. -/
theorem execTick_polls {s t : State} (h : execTick s = .next t) : PollsAtMost Config.adcPollMax s.out t.out := by
  rcases execTick_cases h with ⟨_, rfl⟩ | ⟨_, _, rfl⟩ | ⟨_, _, _, u, hu, rfl⟩ | ⟨_, _, _, rfl⟩ | ⟨_, _, rfl⟩
  · exact .refl _ _
  · exact ⟨[.ledSet], rfl, Nat.zero_le _⟩
  · exact (adcSample_polls hu).trans (sampleTickEnd_polls u)
  · obtain ⟨es, hout, hes⟩ := sampleTickEnd_polls s
    exact ⟨es, hout, hes.trans (Nat.zero_le _)⟩
  · exact .refl _ _

/-- R227: no external operation but `TICK` polls the ADC. -/
theorem exec_external_polls {i : Instr} {s t : State} (hi : i.isExternal = true) (h : exec i s = .next t) :
    PollsAtMost (if i = .tick then Config.adcPollMax else 0) s.out t.out := by
  cases i with
  | tick => exact execTick_polls h
  | idle => cases h; exact .refl _ _
  | rdraw => cases h; exact ⟨[.rdraw (memRead s)], rfl, Nat.le_refl 0⟩
  | take => cases h; exact ⟨[.take (measRecord s)], rfl, Nat.le_refl 0⟩
  | reset =>
    rw [execReset_eq] at h
    obtain rfl := Host.Outcome.next.inj h
    exact .refl _ _
  | meas =>
    rcases unlessHalted_eq_next h with ⟨_, rfl⟩ | ⟨_, h⟩
    · exact .refl _ _
    · cases h; exact .refl _ _
  | r2v | updb | v2d | wrraw | adcSel | adcStart | adcPoll | adcRead | ledClr | ledSet => cases hi

/-- Settles O53: the step executes the presented operation, which completes and polls only as a `TICK`. -/
theorem everyExternalOperationCompletes : Obligations.EveryExternalOperationCompletes := by
  intro s p ps i hprog hvia hdec hext hs hadc
  have hstep := stepExecutesThePresentedOperation.1 s p ps i hprog hdec (by rw [hvia]; exact hext) hs
  obtain ⟨t, ht⟩ := exec_external_completes (s := { s with pins := p.pins, program := ps }) hext fun _ => hadc
  obtain ⟨es, hout, hpolls⟩ := exec_external_polls hext ht
  refine ⟨t, es, hstep.trans ht, hout, hpolls.trans ?_, fun hi => ?_⟩
  · split
    · exact Nat.le_refl _
    · exact Nat.zero_le _
  · rw [if_neg hi] at hpolls
    exact Nat.le_zero.mp hpolls

end Sys2Proof.Machine

/-! A `MEAS` before the first sample, and the block without its calibration that it leaves (70_reset_and_hazards). -/

namespace Sys2Proof.Machine

/-- R160: a raw sample of 0 has the voltage 0. -/
theorem takeMeasurement_measVoltage_of_noSample {s : State} (hmax : 1 ≤ s.cfg.adcMax.toNat) (hraw : memRead s = 0) :
    (takeMeasurement s).measVoltage = 0 := by
  have hvolt : (takeMeasurement s).measVoltage = r2v s.cfg (memRead s) := rfl
  rw [hvolt, hraw, r2v_zero hmax]

/-- R164: a voltage of 0 takes the baseline with it. -/
theorem takeMeasurement_baseline_of_voltage_zero {s : State} (hv : (takeMeasurement s).measVoltage = 0) :
    (takeMeasurement s).baseline = 0 := by
  apply BitVec.eq_of_toNat_eq
  rw [takeMeasurement_baseline_toNat, hv]
  exact Nat.min_zero _

/-- R168: there is no density up to the baseline, so none at a voltage of 0. -/
theorem takeMeasurement_measDensity_of_voltage_zero {s : State} (hv : (takeMeasurement s).measVoltage = 0) :
    (takeMeasurement s).measDensity = 0 := by
  apply BitVec.eq_of_toNat_eq
  rw [takeMeasurement_measDensity_toNat, hv]
  simp

/-- R165: the baseline only falls, so 0 stays 0. -/
theorem takeMeasurement_baseline_of_baseline_zero {s : State} (hb : s.baseline = 0) : (takeMeasurement s).baseline = 0 := by
  apply BitVec.eq_of_toNat_eq
  rw [takeMeasurement_baseline_toNat, hb]
  exact Nat.zero_min _

/-- R247: against the baseline 0 the excess is the whole voltage. -/
theorem takeMeasurement_measDensity_of_baseline_zero {s : State} (hb : s.baseline = 0) :
    (takeMeasurement s).measDensity.toNat = (takeMeasurement s).measVoltage.toNat * s.cfg.slopeFx.toNat := by
  rw [takeMeasurement_measDensity_toNat, takeMeasurement_baseline_of_baseline_zero hb]
  rfl

/-- Settles O44: the sample 0 gives the voltage 0, to which the baseline falls; from there no `MEAS` raises it. -/
theorem earlyMeasLosesTheCalibration : Obligations.EarlyMeasLosesTheCalibration := by
  intro s hh hmax hraw
  have hv := takeMeasurement_measVoltage_of_noSample hmax hraw
  refine ⟨takeMeasurement s, exec_meas_running hh, takeMeasurement_baseline_of_voltage_zero hv, hv,
    takeMeasurement_measDensity_of_voltage_zero hv, fun u v hu hb h => ?_⟩
  obtain rfl := eq_of_unlessHalted_running hu h
  exact ⟨takeMeasurement_baseline_of_baseline_zero hb, takeMeasurement_measDensity_of_baseline_zero hb⟩

end Sys2Proof.Machine
